-- ==== Sys2Proof/Word.lean ====
section
/-! DEFINITION. The word types of the hub and the fixed-size table. -/

namespace Sys2Proof

/-- One byte of a frame. -/
abbrev Byte := BitVec 8

/-- A two-byte field of a frame, sent low byte first. -/
abbrev Half := BitVec 16

/-- A tick of 100 µs of the Time Base, a 32-bit counter value (R183). -/
abbrev Tick := BitVec 32

/-- K0 to K23. -/
abbrev KioskId := Fin 24

/-- D0 to D11. -/
abbrev PortId := Fin 12

/-- A fixed number of like records: one per port, kiosk or route index. -/
abbrev Table (α : Type) (n : Nat) := Vector α n

/-- The record at an index. -/
def Table.get {α : Type} {n : Nat} (t : Table α n) (i : Fin n) : α := t[i]

/-- The table with one record replaced. -/
def Table.put {α : Type} {n : Nat} (t : Table α n) (i : Fin n) (x : α) : Table α n := t.set i x

/-- The table with one record changed. -/
def Table.modify {α : Type} {n : Nat} (t : Table α n) (i : Fin n) (f : α → α) : Table α n :=
  t.put i (f (t.get i))

/-- A table of equal records. -/
def Table.fill {α : Type} (n : Nat) (x : α) : Table α n := Vector.replicate n x

@[simp] theorem Table.get_put {α : Type} {n : Nat} (t : Table α n) (i j : Fin n) (x : α) :
    (t.put i x).get j = if j = i then x else t.get j := by
  simp [Table.get, Table.put, Vector.getElem_set, Fin.ext_iff, eq_comm]

@[simp] theorem Table.get_modify {α : Type} {n : Nat} (t : Table α n) (i j : Fin n) (f : α → α) :
    (t.modify i f).get j = if j = i then f (t.get j) else t.get j := by
  by_cases h : j = i <;> simp [Table.modify, h]

@[simp] theorem Table.get_fill {α : Type} {n : Nat} (x : α) (i : Fin n) :
    (Table.fill n x).get i = x := by
  simp [Table.get, Table.fill]

/-- The twelve device ports, D0 first. -/
def allPorts : List PortId := List.finRange 12

/-- The twenty-four kiosks, K0 first. -/
def allKiosks : List KioskId := List.finRange 24

theorem mem_allPorts (p : PortId) : p ∈ allPorts := List.mem_finRange p

theorem mem_allKiosks (k : KioskId) : k ∈ allKiosks := List.mem_finRange k

end Sys2Proof
end

