-- ==== Sys2Proof/Config.lean ====
section
/-! DEFINITION. The vocabulary of the settings, the settings records themselves, the capacities of the
part, and the values that the spec leaves open (constants with no body). -/

namespace Sys2Proof

/-! ### The vocabulary of the settings -/

/-- Port class (R145). -/
inductive PortClass where
  | printer | scanner | panel | unused
  deriving DecidableEq, Repr

/-- Queue mode of a printer port (R48). -/
inductive QueueMode where
  | arrival | priority
  deriving DecidableEq, Repr

/-- Power level (Power Levels, the table of levels), lowest first. -/
inductive Level where
  | off | sleep | standby | ready
  deriving DecidableEq, Repr

/-- Cue edge of the hub (R108); `neither` is the spec's NONE. -/
inductive CueEdge where
  | neither | rising | falling | both
  deriving DecidableEq, Repr

/-- How a route entry is compared with a zone (R112). -/
inductive RouteKind where
  | range | pair | mask
  deriving DecidableEq, Repr

/-- What a matching DOWN does (R111); the kiosk is present for KIOSK only. -/
inductive RouteAction where
  | holder
  | kiosk (k : KioskId)
  | staff
  | drop
  | seqA
  | seqB
  deriving DecidableEq, Repr

/-- Fault kind (R59, R153). -/
inductive FaultKind where
  | jam | paperOut | coverOpen | lamp | feed | other
  deriving DecidableEq, Repr

/-- Response of a sequence trigger (R120). -/
inductive SeqResponse where
  | notice | noticeTake
  deriving DecidableEq, Repr

/-! ### The settings records -/

/-- A reach window: the ports from base to limit, none when base exceeds limit (R180). -/
structure Window where
  base : PortId
  limit : PortId
  deriving DecidableEq, Repr

/-- A kiosk profile (R180). -/
structure Profile where
  admitted : Bool
  cls : Fin 4
  w1 : Window
  w2 : Window
  deriving DecidableEq, Repr

/-- A port configuration record (R145), each duration in the unit of its setting. -/
structure PortConfig where
  cls : PortClass
  responseMs : Nat
  wakeS : Nat
  idleS : Nat
  shieldS : Nat
  queueMode : QueueMode
  autoResume : Bool
  jamLimit : Nat
  gapMs : Nat
  stallS : Nat
  idleDest : Option KioskId
  cueEnable : Bool
  deriving DecidableEq, Repr

/-- Floor and ceiling of a port (R163). -/
structure PowerLimits where
  floor : Level
  ceiling : Level
  deriving DecidableEq, Repr

/-- A calibration record (R94); `cols` and `rows` are the C and G of the zone grid. -/
structure Calibration where
  xMin : Nat
  xMax : Nat
  yMin : Nat
  yMax : Nat
  swap : Bool
  invertX : Bool
  invertY : Bool
  width : Nat
  height : Nat
  cols : Nat
  rows : Nat
  deriving DecidableEq, Repr

/-- A route entry (R111). -/
structure RouteEntry where
  enabled : Bool
  kind : RouteKind
  z1 : Byte
  z2 : Byte
  action : RouteAction
  deriving DecidableEq, Repr

/-- The configuration of a sequence trigger (R120). -/
structure SeqConfig where
  armed : Bool
  windowMs : Nat
  response : SeqResponse
  deriving DecidableEq, Repr

/-- Everything the settings image holds (R184). -/
structure Settings where
  profiles : Table Profile 24
  configs : Table PortConfig 12
  limits : Table PowerLimits 12
  calibrations : Table Calibration 12
  routes : Table (Table RouteEntry 16) 12
  sequences : Table SeqConfig 12
  cueEdge : CueEdge
  deriving DecidableEq, Repr

/-! ### Capacities (00_scope.md, "Capacities at a glance") -/

/-- Claim records in the pool (R1). -/
def Config.claimPool : Nat := 48

/-- Claim records of one kiosk (R1). -/
def Config.claimsPerKiosk : Nat := 4

/-- Job records in the pool (R43). -/
def Config.jobPool : Nat := 64

/-- Live jobs of one kiosk (R43). -/
def Config.jobsPerKiosk : Nat := 4

/-- Items of an outbound queue (R136). -/
def Config.queueItems : Nat := 32

/-- Touch records of an outbound queue (R136). -/
def Config.queueTouches : Nat := 16

/-- Contacts of a panel (R100). -/
def Config.contacts : Nat := 10

/-- Buffers of a port (R126). -/
def Config.buffers : Nat := 4

/-- Bytes of the external settings memory (R184). -/
def Config.memoryBytes : Nat := 8192

/-! ### Free values: constants with no body -/

/-- What the settings memory holds after a write that failed or that a reset interrupted (R185). -/
inductive WriteRemains where
  /-- the old contents -/
  | oldWhole
  /-- part of the new image over part of the old one: it fails its check word -/
  | mixed
  /-- the new image -/
  | newWhole
  deriving DecidableEq, Repr, Inhabited

/-- FREE VALUE (log 11): what a write that failed or was interrupted left, at each draw. -/
opaque Config.writeRemains : Nat → WriteRemains

/-- FREE VALUE (log 11): which bytes of the new image reached the memory, at each draw. -/
opaque Config.byteWritten : Nat → Nat → Bool

/-- FREE VALUE (log 10): the count of bytes forwarded that a scan record shows once the true count, the
argument, exceeds the 32 bits of the field (R74). -/
opaque Config.bytesPast32Bits : Nat → BitVec 32

end Sys2Proof
end

