-- ==== Sys2Proof/Syntax.lean ====
section
/-! DEFINITION. The commands: one constructor of `Instr` per row of spec/opcode_table.json, with the
operands of the frame, expiry or completion that the row stands for. Body fields are the raw values of
12_frame_and_record_layouts.md, so that the owning rule's checks are made on what the hub receives. -/

namespace Sys2Proof

/-- A kiosk link or the staff link. -/
inductive LinkId where
  | kiosk (k : KioskId)
  | staff
  deriving DecidableEq, Repr

/-- Any of the 37 links of the hub. -/
inductive Wire where
  | link (l : LinkId)
  | device (p : PortId)
  deriving DecidableEq, Repr

/-- The body of a received frame: of a wrong length for its kind (R189), or its fields. -/
inductive Body (α : Type) where
  | wrongLength
  | fields (x : α)
  deriving DecidableEq, Repr

/-- SUBMIT; the tray is present when bit 2 of options is set. -/
structure SubmitBody where
  port : Byte
  tag : Half
  priority : Byte
  copies : Byte
  pages : Half
  options : Byte
  tray : Option Byte
  deriving DecidableEq, Repr

/-- SCAN, on a kiosk link or the staff link. -/
structure ScanBody where
  port : Byte
  mode : Byte
  resolution : Half
  credit : Byte
  deriving DecidableEq, Repr

/-- VOTE; the level is absent when bit 0 of its flags is clear. -/
structure VoteBody where
  port : Byte
  level : Option Byte
  deriving DecidableEq, Repr

/-- ADMIT. -/
structure AdmitBody where
  kiosk : Byte
  admitted : Byte
  deriving DecidableEq, Repr

/-- PROFILE_SET. -/
structure ProfileBody where
  kiosk : Byte
  cls : Byte
  w1Base : Byte
  w1Limit : Byte
  w2Base : Byte
  w2Limit : Byte
  deriving DecidableEq, Repr

/-- PORT_SET: the port and the port configuration record as received. -/
structure PortSetBody where
  port : Byte
  cls : Byte
  responseMs : Half
  wakeS : Byte
  idleS : Half
  shieldS : Byte
  queueMode : Byte
  autoResume : Byte
  jamLimit : Byte
  gapMs : Half
  stallS : Byte
  flags : Byte
  idleDest : Byte
  cueEnable : Byte
  deriving DecidableEq, Repr

/-- CALIBRATE: the port and the calibration record as received. -/
structure CalibrateBody where
  port : Byte
  xMin : Half
  xMax : Half
  yMin : Half
  yMax : Half
  flags : Byte
  width : Half
  height : Half
  cols : Byte
  rows : Byte
  deriving DecidableEq, Repr

/-- ROUTE_SET: the port, the index and the route entry as received. -/
structure RouteSetBody where
  port : Byte
  index : Byte
  control : Byte
  z1 : Byte
  z2 : Byte
  kiosk : Byte
  deriving DecidableEq, Repr

/-- SEQ_SET. -/
structure SeqSetBody where
  port : Byte
  armed : Byte
  windowMs : Half
  response : Byte
  deriving DecidableEq, Repr

/-- LIMIT. -/
structure LimitBody where
  port : Byte
  floor : Byte
  ceiling : Byte
  deriving DecidableEq, Repr

/-- CHECK. -/
structure CheckBody where
  port : Byte
  duration : Byte
  deriving DecidableEq, Repr

/-- QUEUE_LIST and CLAIM_LIST. -/
structure ListBody where
  port : Byte
  start : Byte
  deriving DecidableEq, Repr

/-- CHUNK: bit 0 of its flags is PAGE_END, bit 1 LAST. -/
structure ChunkBody where
  port : Byte
  seq : Byte
  flags : Byte
  data : List Byte
  deriving DecidableEq, Repr

/-- CREDIT, from a kiosk, the staff console or an adapter. -/
structure CreditBody where
  port : Byte
  count : Byte
  deriving DecidableEq, Repr

/-- IDENT. -/
structure IdentBody where
  cls : Byte
  model : Half
  capabilities : Byte
  level : Byte
  deriving DecidableEq, Repr

/-- TOUCH_REPORT, stamped with the tick at which the frame arrived (R92); its phase is the row's. -/
structure TouchBody where
  /-- the tick at which the frame arrived (R92, log 14) -/
  arrival : Tick
  contact : Byte
  rawX : Half
  rawY : Half
  pressure : Byte
  deriving DecidableEq, Repr

/-- How the external settings memory answers a read (log 12). -/
inductive MemoryAnswer where
  /-- it does not answer -/
  | silent
  /-- it answers with what the hub last left in it -/
  | held
  /-- it answers with these bytes, from its first on: it was programmed or damaged from outside the hub -/
  | bytes (image : List Byte)
  deriving DecidableEq, Repr

/-- The commands of the hub, in the order of the table. -/
inductive Instr where
  | powerOn
  | resetLine
  | startupReadEnds (answer : MemoryAnswer) (cueHigh : Bool)
  | hello (l : LinkId) (b : Body Unit)
  | bye (l : LinkId) (b : Body Unit)
  | claim (k : KioskId) (b : Body Byte)
  | release (k : KioskId) (b : Body Byte)
  | claimQuery (k : KioskId) (b : Body Byte)
  | submit (k : KioskId) (b : Body SubmitBody)
  | cancel (k : KioskId) (b : Body Half)
  | jobQuery (k : KioskId) (b : Body Half)
  | scan (k : KioskId) (b : Body ScanBody)
  | scanStop (k : KioskId) (b : Body Byte)
  | vote (k : KioskId) (b : Body VoteBody)
  | portQuery (l : LinkId) (b : Body Byte)
  | staffScan (b : Body ScanBody)
  | staffScanStop (b : Body Byte)
  | setAdmission (b : Body AdmitBody)
  | profileSet (b : Body ProfileBody)
  | kioskQuery (b : Body Byte)
  | kioskDrop (b : Body Byte)
  | portSet (b : Body PortSetBody)
  | calibrate (b : Body CalibrateBody)
  | routeSet (b : Body RouteSetBody)
  | routeQuery (b : Body Byte)
  | seqSet (b : Body SeqSetBody)
  | seqQuery (b : Body Byte)
  | cueSet (b : Body Byte)
  | take (b : Body Byte)
  | giveBack (b : Body Byte)
  | closeHall (b : Body Unit)
  | openHall (b : Body Unit)
  | limit (b : Body LimitBody)
  | portReset (b : Body Byte)
  | check (b : Body CheckBody)
  | jobDrop (b : Body Half)
  | queueList (b : Body ListBody)
  | claimList (b : Body ListBody)
  | save (b : Body Unit)
  | load (b : Body Unit)
  | hubReset (b : Body Unit)
  | hubIdent (b : Body Unit)
  | unknownKind (l : LinkId) (kind : Byte)
  | discardedFrame (w : Wire) (bytes : List Byte)
  | chunk (w : Wire) (b : Body ChunkBody)
  | credit (l : LinkId) (b : Body CreditBody)
  | adapterCredit (p : PortId) (b : CreditBody)
  | announce (p : PortId)
  | ident (p : PortId) (b : IdentBody)
  | powerDone (p : PortId) (level : Byte)
  | printAccept (p : PortId) (credit : Byte)
  | progress (p : PortId) (sheets : Half)
  | held (p : PortId)
  | printEnd (p : PortId) (outcome : Byte) (sheets : Half)
  | fault (p : PortId) (kind : Byte)
  | cleared (p : PortId)
  | scanAccept (p : PortId)
  | scanCode (p : PortId) (symbology : Byte) (text : List Byte)
  | scanEnd (p : PortId) (outcome : Byte) (sent : BitVec 32)
  | touchDown (p : PortId) (b : TouchBody)
  | touchMove (p : PortId) (b : TouchBody)
  | touchUp (p : PortId) (b : TouchBody)
  | docSense (p : PortId) (flags : Byte)
  | testResult (p : PortId) (flags : Byte)
  | echo (p : PortId) (data : List Byte)
  | alive (p : PortId)
  | adapterFrameWrongLength (p : PortId) (kind : Byte)
  | adapterUnknownKind (p : PortId) (kind : Byte)
  | cueEdge (high : Bool) (seen : Tick)
  | idleExpiry (p : PortId)
  | shieldExpiry (p : PortId)
  | gapExpiry (p : PortId)
  | kioskStall (p : PortId)
  | pushStall (p : PortId)
  | cueSaturated (p : PortId)
  | seqExpiry (p : PortId)
  | responseTimeout (p : PortId)
  | adapterSilence (p : PortId)
  | clearSpacingExpiry (p : PortId)
  | linkSilence (l : LinkId)
  | frameSent (l : LinkId)
  | deviceFrameSent (p : PortId)
  | writingEnds (acknowledged : Bool)
  | loadReadEnds (answer : MemoryAnswer)
  deriving DecidableEq, Repr

end Sys2Proof
end

