-- ==== Sys2Proof/Decode.lean ====
section
/-! DEFINITION. From the bytes of a link to a command: the check word and the hunt of R171, the body
layouts of 12_frame_and_record_layouts.md with the length rule of R189 and the ignored bits of R190, and the
kind codes. The opcode table gives no row any bits, so `decodeTableWord` answers none. -/

namespace Sys2Proof

/-- The command that a word spells by the table's bits: the table gives none of its rows any bits. -/
def decodeTableWord (_nbits _w : Nat) : Option Instr := none

/-! ### Kind codes (12, "Kind codes") -/

def Kind.reply : Byte := 0x01
def Kind.hello : Byte := 0x10
def Kind.bye : Byte := 0x11
def Kind.claim : Byte := 0x12
def Kind.release : Byte := 0x13
def Kind.claimQuery : Byte := 0x14
def Kind.submit : Byte := 0x15
def Kind.cancel : Byte := 0x16
def Kind.jobQuery : Byte := 0x17
def Kind.scan : Byte := 0x18
def Kind.scanStop : Byte := 0x19
def Kind.vote : Byte := 0x1A
def Kind.portQuery : Byte := 0x1B
def Kind.setAdmission : Byte := 0x20
def Kind.profileSet : Byte := 0x21
def Kind.kioskQuery : Byte := 0x22
def Kind.kioskDrop : Byte := 0x23
def Kind.portSet : Byte := 0x24
def Kind.calibrate : Byte := 0x25
def Kind.routeSet : Byte := 0x26
def Kind.routeQuery : Byte := 0x27
def Kind.seqSet : Byte := 0x28
def Kind.seqQuery : Byte := 0x29
def Kind.cueSet : Byte := 0x2A
def Kind.take : Byte := 0x2B
def Kind.giveBack : Byte := 0x2C
def Kind.closeHall : Byte := 0x2D
def Kind.openHall : Byte := 0x2E
def Kind.limit : Byte := 0x2F
def Kind.portReset : Byte := 0x30
def Kind.check : Byte := 0x31
def Kind.jobDrop : Byte := 0x32
def Kind.queueList : Byte := 0x33
def Kind.claimList : Byte := 0x34
def Kind.save : Byte := 0x35
def Kind.load : Byte := 0x36
def Kind.hubReset : Byte := 0x37
def Kind.hubIdent : Byte := 0x38
def Kind.claimState : Byte := 0x40
def Kind.jobState : Byte := 0x41
def Kind.scanResult : Byte := 0x42
def Kind.docState : Byte := 0x43
def Kind.touch : Byte := 0x44
def Kind.portState : Byte := 0x48
def Kind.takeState : Byte := 0x49
def Kind.hallState : Byte := 0x4A
def Kind.kioskState : Byte := 0x4B
def Kind.checkResult : Byte := 0x4C
def Kind.saveResult : Byte := 0x4D
def Kind.hubState : Byte := 0x4E
def Kind.attendant : Byte := 0x4F
def Kind.chunk : Byte := 0x60
def Kind.credit : Byte := 0x61
def Kind.identAsk : Byte := 0x80
def Kind.powerSet : Byte := 0x81
def Kind.printStart : Byte := 0x82
def Kind.printAbort : Byte := 0x83
def Kind.printHold : Byte := 0x84
def Kind.printResume : Byte := 0x85
def Kind.scanStart : Byte := 0x86
def Kind.scanAbort : Byte := 0x87
def Kind.testStart : Byte := 0x88
def Kind.echo : Byte := 0x89
def Kind.portClear : Byte := 0x8A
def Kind.announce : Byte := 0xA0
def Kind.ident : Byte := 0xA1
def Kind.powerDone : Byte := 0xA2
def Kind.printAccept : Byte := 0xA3
def Kind.progress : Byte := 0xA4
def Kind.held : Byte := 0xA5
def Kind.printEnd : Byte := 0xA6
def Kind.fault : Byte := 0xA7
def Kind.cleared : Byte := 0xA8
def Kind.scanAccept : Byte := 0xA9
def Kind.scanCode : Byte := 0xAA
def Kind.scanEnd : Byte := 0xAB
def Kind.touchReport : Byte := 0xAC
def Kind.docSense : Byte := 0xAD
def Kind.testResult : Byte := 0xAE
def Kind.alive : Byte := 0xAF

/-- The request kinds of a kiosk link (10, "Request kinds"; 12, "Kind codes"). -/
def isKioskRequest (kind : Byte) : Bool := 0x10 ≤ kind && kind ≤ 0x1B

/-- The request kinds of the staff link (10, "Request kinds"; 12, "Kind codes"). -/
def isStaffRequest (kind : Byte) : Bool :=
  [Kind.hello, Kind.bye, Kind.scan, Kind.scanStop, Kind.portQuery].contains kind
    || (0x20 ≤ kind && kind ≤ 0x38)

/-- The stream frames, on every link. -/
def isStreamKind (kind : Byte) : Bool := kind == Kind.chunk || kind == Kind.credit

/-- The catalogue of frames from adapters (12, "Kind codes"). -/
def isAdapterKind (kind : Byte) : Bool :=
  kind == Kind.echo || isStreamKind kind || (0xA0 ≤ kind && kind ≤ 0xAF)

/-- A level's number (12, "Common encodings"). -/
def Level.value : Level → Nat
  | .off => 0 | .sleep => 1 | .standby => 2 | .ready => 3

/-! ### The check word (R171) -/

/-- A two-byte number sent low byte first. -/
def half (lo hi : Byte) : Half := hi ++ lo

/-- A four-byte number sent low byte first. -/
def word32 (b0 b1 b2 b3 : Byte) : BitVec 32 := (b3 ++ b2) ++ (b1 ++ b0)

/-- One data bit of the check word's computation. -/
def crcBit (r : Half) (bit : Bool) : Half :=
  if r.msb != bit then (r <<< 1) ^^^ 0x1021 else r <<< 1

/-- One byte of the check word's computation, most significant bit first. -/
def crcByte (r : Half) (b : Byte) : Half :=
  [7, 6, 5, 4, 3, 2, 1, 0].foldl (fun r i => crcBit r (b.getLsbD i)) r

/-- The check word over some bytes. -/
def checkWord (bytes : List Byte) : Half := bytes.foldl crcByte 0xFFFF

/-! ### The hunt for frames (R171) -/

/-- A valid frame: its kind and its body. -/
structure Frame where
  kind : Byte
  body : List Byte
  deriving DecidableEq, Repr

/-- The start byte of every frame. -/
def startByte : Byte := 0xC3

/-- What the receiver makes of the bytes from a start byte on. -/
inductive Candidate where
  /-- LENGTH, CONTENT or CHECK: more bytes are needed -/
  | incomplete
  /-- a length outside 1 to 300, or a check word that differs -/
  | discarded
  /-- a valid frame, and the bytes after it -/
  | valid (f : Frame) (rest : List Byte)
  deriving DecidableEq, Repr

/-- The stages LENGTH, CONTENT and CHECK over the bytes that follow a start byte. -/
def examine : List Byte → Candidate
  | lo :: hi :: rest =>
    let n := (half lo hi).toNat
    if n = 0 ∨ 300 < n then .discarded
    else if rest.length < n + 2 then .incomplete
    else match rest.take n, rest.drop n with
      | kind :: body, c0 :: c1 :: after =>
        if checkWord (lo :: hi :: kind :: body) = half c0 c1 then .valid ⟨kind, body⟩ after
        else .discarded
      | _, _ => .discarded
  | _ => .incomplete

/-- The hunt over buffered bytes: the valid frames found, and the bytes kept from the start byte of a
candidate that is still incomplete. A discarded candidate is hunted again from the byte after its start. -/
def huntWith : Nat → List Byte → List Frame × List Byte
  | 0, bs => ([], bs)
  | _ + 1, [] => ([], [])
  | n + 1, b :: bs =>
    if b = startByte then
      match examine bs with
      | .incomplete => ([], b :: bs)
      | .discarded => huntWith n bs
      | .valid f rest => let r := huntWith n rest; (f :: r.1, r.2)
    else huntWith n bs

/-- The hunt, with a step for every byte. -/
def hunt (bs : List Byte) : List Frame × List Byte := huntWith bs.length bs

/-- The stage of a receiver that holds these bytes (R171). -/
inductive HuntStage where
  | hunt | length | content | check
  deriving DecidableEq, Repr

def huntStage : List Byte → HuntStage
  | [] => .hunt
  | _ :: lo :: hi :: rest => if rest.length < (half lo hi).toNat then .content else .check
  | _ => .length

/-! ### Bodies (12, "Bodies of received frames"; R189, R190) -/

def parseEmpty : List Byte → Body Unit
  | [] => .fields ()
  | _ => .wrongLength

def parseByte : List Byte → Body Byte
  | [b] => .fields b
  | _ => .wrongLength

def parseHalf : List Byte → Body Half
  | [b0, b1] => .fields (half b0 b1)
  | _ => .wrongLength

/-- SUBMIT: 8 bytes, or 9 with bit 2 of options set. -/
def parseSubmit : List Byte → Body SubmitBody
  | [p, t0, t1, pr, c, d0, d1, o] =>
    if o.getLsbD 2 then .wrongLength else .fields ⟨p, half t0 t1, pr, c, half d0 d1, o, none⟩
  | [p, t0, t1, pr, c, d0, d1, o, y] =>
    if o.getLsbD 2 then .fields ⟨p, half t0 t1, pr, c, half d0 d1, o, some y⟩ else .wrongLength
  | _ => .wrongLength

def parseScan : List Byte → Body ScanBody
  | [p, m, r0, r1, c] => .fields ⟨p, m, half r0 r1, c⟩
  | _ => .wrongLength

/-- VOTE: 2 bytes, or 3 with bit 0 of its flags set. -/
def parseVote : List Byte → Body VoteBody
  | [p, f] => if f.getLsbD 0 then .wrongLength else .fields ⟨p, none⟩
  | [p, f, l] => if f.getLsbD 0 then .fields ⟨p, some l⟩ else .wrongLength
  | _ => .wrongLength

def parseAdmit : List Byte → Body AdmitBody
  | [k, a] => .fields ⟨k, a⟩
  | _ => .wrongLength

def parseProfile : List Byte → Body ProfileBody
  | [k, c, b1, l1, b2, l2] => .fields ⟨k, c, b1, l1, b2, l2⟩
  | _ => .wrongLength

def parsePortSet : List Byte → Body PortSetBody
  | [p, c, r0, r1, w, i0, i1, sh, q, a, j, g0, g1, st, f, d, e] =>
    .fields ⟨p, c, half r0 r1, w, half i0 i1, sh, q, a, j, half g0 g1, st, f, d, e⟩
  | _ => .wrongLength

def parseCalibrate : List Byte → Body CalibrateBody
  | [p, a0, a1, b0, b1, c0, c1, d0, d1, f, w0, w1, h0, h1, c, g] =>
    .fields ⟨p, half a0 a1, half b0 b1, half c0 c1, half d0 d1, f, half w0 w1, half h0 h1, c, g⟩
  | _ => .wrongLength

def parseRouteSet : List Byte → Body RouteSetBody
  | [p, i, c, z1, z2, k] => .fields ⟨p, i, c, z1, z2, k⟩
  | _ => .wrongLength

def parseSeqSet : List Byte → Body SeqSetBody
  | [p, a, w0, w1, r] => .fields ⟨p, a, half w0 w1, r⟩
  | _ => .wrongLength

def parseLimit : List Byte → Body LimitBody
  | [p, f, c] => .fields ⟨p, f, c⟩
  | _ => .wrongLength

def parseCheck : List Byte → Body CheckBody
  | [p, d] => .fields ⟨p, d⟩
  | _ => .wrongLength

def parseList : List Byte → Body ListBody
  | [p, st] => .fields ⟨p, st⟩
  | _ => .wrongLength

/-- CHUNK: 4 to 259 bytes, so that its data is 1 to 256 bytes. -/
def parseChunk : List Byte → Body ChunkBody
  | p :: q :: f :: data =>
    if 1 ≤ data.length ∧ data.length ≤ 256 then .fields ⟨p, q, f, data⟩ else .wrongLength
  | _ => .wrongLength

def parseCredit : List Byte → Body CreditBody
  | [p, c] => .fields ⟨p, c⟩
  | _ => .wrongLength

/-! ### Frames to commands -/

/-- The command that a valid frame on a kiosk link is. -/
def kioskFrame (k : KioskId) (f : Frame) : Instr :=
  if f.kind = Kind.hello then .hello (.kiosk k) (parseEmpty f.body)
  else if f.kind = Kind.bye then .bye (.kiosk k) (parseEmpty f.body)
  else if f.kind = Kind.claim then .claim k (parseByte f.body)
  else if f.kind = Kind.release then .release k (parseByte f.body)
  else if f.kind = Kind.claimQuery then .claimQuery k (parseByte f.body)
  else if f.kind = Kind.submit then .submit k (parseSubmit f.body)
  else if f.kind = Kind.cancel then .cancel k (parseHalf f.body)
  else if f.kind = Kind.jobQuery then .jobQuery k (parseHalf f.body)
  else if f.kind = Kind.scan then .scan k (parseScan f.body)
  else if f.kind = Kind.scanStop then .scanStop k (parseByte f.body)
  else if f.kind = Kind.vote then .vote k (parseVote f.body)
  else if f.kind = Kind.portQuery then .portQuery (.kiosk k) (parseByte f.body)
  else if f.kind = Kind.chunk then .chunk (.link (.kiosk k)) (parseChunk f.body)
  else if f.kind = Kind.credit then .credit (.kiosk k) (parseCredit f.body)
  else .unknownKind (.kiosk k) f.kind

/-- The command that a valid frame on the staff link is. -/
def staffFrame (f : Frame) : Instr :=
  if f.kind = Kind.hello then .hello .staff (parseEmpty f.body)
  else if f.kind = Kind.bye then .bye .staff (parseEmpty f.body)
  else if f.kind = Kind.scan then .staffScan (parseScan f.body)
  else if f.kind = Kind.scanStop then .staffScanStop (parseByte f.body)
  else if f.kind = Kind.portQuery then .portQuery .staff (parseByte f.body)
  else if f.kind = Kind.setAdmission then .setAdmission (parseAdmit f.body)
  else if f.kind = Kind.profileSet then .profileSet (parseProfile f.body)
  else if f.kind = Kind.kioskQuery then .kioskQuery (parseByte f.body)
  else if f.kind = Kind.kioskDrop then .kioskDrop (parseByte f.body)
  else if f.kind = Kind.portSet then .portSet (parsePortSet f.body)
  else if f.kind = Kind.calibrate then .calibrate (parseCalibrate f.body)
  else if f.kind = Kind.routeSet then .routeSet (parseRouteSet f.body)
  else if f.kind = Kind.routeQuery then .routeQuery (parseByte f.body)
  else if f.kind = Kind.seqSet then .seqSet (parseSeqSet f.body)
  else if f.kind = Kind.seqQuery then .seqQuery (parseByte f.body)
  else if f.kind = Kind.cueSet then .cueSet (parseByte f.body)
  else if f.kind = Kind.take then .take (parseByte f.body)
  else if f.kind = Kind.giveBack then .giveBack (parseByte f.body)
  else if f.kind = Kind.closeHall then .closeHall (parseEmpty f.body)
  else if f.kind = Kind.openHall then .openHall (parseEmpty f.body)
  else if f.kind = Kind.limit then .limit (parseLimit f.body)
  else if f.kind = Kind.portReset then .portReset (parseByte f.body)
  else if f.kind = Kind.check then .check (parseCheck f.body)
  else if f.kind = Kind.jobDrop then .jobDrop (parseHalf f.body)
  else if f.kind = Kind.queueList then .queueList (parseList f.body)
  else if f.kind = Kind.claimList then .claimList (parseList f.body)
  else if f.kind = Kind.save then .save (parseEmpty f.body)
  else if f.kind = Kind.load then .load (parseEmpty f.body)
  else if f.kind = Kind.hubReset then .hubReset (parseEmpty f.body)
  else if f.kind = Kind.hubIdent then .hubIdent (parseEmpty f.body)
  else if f.kind = Kind.chunk then .chunk (.link .staff) (parseChunk f.body)
  else if f.kind = Kind.credit then .credit .staff (parseCredit f.body)
  else .unknownKind .staff f.kind

/-- An adapter frame with fields, when its body's length is right. -/
def orWrongLength {α : Type} (p : PortId) (kind : Byte) (b : Body α) (mk : α → Instr) : Instr :=
  match b with
  | .fields x => mk x
  | .wrongLength => .adapterFrameWrongLength p kind

/-- A TOUCH_REPORT: DOWN 0, MOVE 1 or UP 2; a phase outside the three is none of the table's rows. -/
def touchFrame (p : PortId) (now : Tick) (body : List Byte) : Option Instr :=
  match body with
  | [c, ph, x0, x1, y0, y1, pr] =>
    let b : TouchBody := ⟨now, c, half x0 x1, half y0 y1, pr⟩
    if ph = 0 then some (.touchDown p b)
    else if ph = 1 then some (.touchMove p b)
    else if ph = 2 then some (.touchUp p b)
    else none
  | _ => some (.adapterFrameWrongLength p Kind.touchReport)

/-- The command that a valid frame on a device link is, arriving at a tick; none only for a TOUCH_REPORT
whose phase is none of the three. -/
def deviceFrame (p : PortId) (now : Tick) (f : Frame) : Option Instr :=
  if f.kind = Kind.announce then some (orWrongLength p f.kind (parseEmpty f.body) fun _ => .announce p)
  else if f.kind = Kind.ident then
    some (match f.body with
      | [c, m0, m1, cap, l] => .ident p ⟨c, half m0 m1, cap, l⟩
      | _ => .adapterFrameWrongLength p f.kind)
  else if f.kind = Kind.powerDone then
    some (orWrongLength p f.kind (parseByte f.body) fun l => .powerDone p l)
  else if f.kind = Kind.printAccept then
    some (orWrongLength p f.kind (parseByte f.body) fun c => .printAccept p c)
  else if f.kind = Kind.progress then
    some (orWrongLength p f.kind (parseHalf f.body) fun n => .progress p n)
  else if f.kind = Kind.held then some (orWrongLength p f.kind (parseEmpty f.body) fun _ => .held p)
  else if f.kind = Kind.printEnd then
    some (match f.body with
      | [o, n0, n1] => .printEnd p o (half n0 n1)
      | _ => .adapterFrameWrongLength p f.kind)
  else if f.kind = Kind.fault then
    some (orWrongLength p f.kind (parseByte f.body) fun x => .fault p x)
  else if f.kind = Kind.cleared then
    some (orWrongLength p f.kind (parseEmpty f.body) fun _ => .cleared p)
  else if f.kind = Kind.scanAccept then
    some (orWrongLength p f.kind (parseEmpty f.body) fun _ => .scanAccept p)
  else if f.kind = Kind.scanCode then
    some (match f.body with
      | y :: text =>
        if 1 ≤ text.length ∧ text.length ≤ 64 then .scanCode p y text
        else .adapterFrameWrongLength p f.kind
      | [] => .adapterFrameWrongLength p f.kind)
  else if f.kind = Kind.scanEnd then
    some (match f.body with
      | [o, n0, n1, n2, n3] => .scanEnd p o (word32 n0 n1 n2 n3)
      | _ => .adapterFrameWrongLength p f.kind)
  else if f.kind = Kind.touchReport then touchFrame p now f.body
  else if f.kind = Kind.docSense then
    some (orWrongLength p f.kind (parseByte f.body) fun x => .docSense p x)
  else if f.kind = Kind.testResult then
    some (orWrongLength p f.kind (parseByte f.body) fun x => .testResult p x)
  else if f.kind = Kind.alive then some (orWrongLength p f.kind (parseEmpty f.body) fun _ => .alive p)
  else if f.kind = Kind.echo then some (.echo p f.body)
  else if f.kind = Kind.chunk then some (.chunk (.device p) (parseChunk f.body))
  else if f.kind = Kind.credit then
    some (orWrongLength p f.kind (parseCredit f.body) fun b => .adapterCredit p b)
  else some (.adapterUnknownKind p f.kind)

/-- The command that a valid frame is, on any of the 37 links. -/
def frameCommand (w : Wire) (now : Tick) (f : Frame) : Option Instr :=
  match w with
  | .link (.kiosk k) => some (kioskFrame k f)
  | .link .staff => some (staffFrame f)
  | .device p => deviceFrame p now f

end Sys2Proof
end

