-- ==== Sys2Proof/WellFormed.lean ====
section
/-! DEFINITION. What a sender of commands must keep to, beyond the types of the operands. The meanings
are total without it; a statement about what the hub does with a frame assumes it where it matters. -/

namespace Sys2Proof

/-- The durations and values of a stored port configuration lie in the ranges of R145. -/
def PortConfig.inRange (c : PortConfig) : Bool :=
  10 ≤ c.responseMs && c.responseMs ≤ 2550 && c.responseMs % 10 == 0
    && 1 ≤ c.wakeS && c.wakeS ≤ 120 && c.idleS ≤ 3600 && c.shieldS ≤ 60 && c.jamLimit ≤ 7
    && c.gapMs ≤ 25500 && c.gapMs % 100 == 0 && 1 ≤ c.stallS && c.stallS ≤ 60

/-- The fields of a calibration record lie in the ranges of R94. -/
def Calibration.inRange (c : Calibration) : Bool :=
  c.xMin < c.xMax && c.xMax ≤ 4095 && c.yMin < c.yMax && c.yMax ≤ 4095
    && 1 ≤ c.width && c.width ≤ 8192 && 1 ≤ c.height && c.height ≤ 8192
    && 1 ≤ c.cols && c.cols ≤ 16 && 1 ≤ c.rows && c.rows ≤ 16

/-- Settings that lie in the ranges of their rules (R94, R124, R146, R163). -/
def Settings.inRange (x : Settings) : Bool :=
  allPorts.all fun p =>
    (x.configs.get p).inRange && (x.calibrations.get p).inRange
      && (x.limits.get p).floor.value ≤ (x.limits.get p).ceiling.value
      && 100 ≤ (x.sequences.get p).windowMs && (x.sequences.get p).windowMs ≤ 5000

/-- The settings memory answers with no more bytes than its 8 KiB (R184). -/
def MemoryAnswer.fits : MemoryAnswer → Bool
  | .silent => true
  | .held => true
  | .bytes image => image.length ≤ Config.memoryBytes

/-- A CHUNK's data is 1 to 256 bytes; any other length is a wrong length (R189). -/
def chunkOk : Body ChunkBody → Bool
  | .wrongLength => true
  | .fields b => 1 ≤ b.data.length && b.data.length ≤ 256

/-- SUBMIT carries a tray exactly when bit 2 of its options is set (R189). -/
def submitOk : Body SubmitBody → Bool
  | .wrongLength => true
  | .fields b => b.tray.isSome == b.options.getLsbD 2

/-- The command is one that its row stands for: the kinds of the rows about kinds, the bytes of a discarded
frame, the lengths that R189 counts as right, and the size of the settings memory. Others have some effect all
the same (log 33). -/
def WellFormed : Instr → Bool
  | .startupReadEnds a _ => a.fits
  | .loadReadEnds a => a.fits
  | .submit _ b => submitOk b
  | .unknownKind (.kiosk _) kind => !isKioskRequest kind && !isStreamKind kind
  | .unknownKind .staff kind => !isStaffRequest kind && !isStreamKind kind
  | .adapterFrameWrongLength _ kind => isAdapterKind kind && kind != Kind.echo
  | .adapterUnknownKind _ kind => !isAdapterKind kind
  | .discardedFrame _ bytes =>
    match bytes with
    | b :: rest => b == startByte && decide (examine rest = .discarded)
    | [] => false
  | .chunk _ b => chunkOk b
  | .scanCode _ _ text => 1 ≤ text.length && text.length ≤ 64
  | .echo _ data => data.length ≤ 299
  | _ => true

end Sys2Proof
end

