-- ==== Sys2Proof/Machine/Time.lean ====
section
/-! DEFINITION. Deadlines and durations (R183): modular comparison with the tick counter, and the
conversions from the units of the settings. -/

namespace Sys2Proof.Machine

/-- A deadline is reached when the counter minus the deadline, modulo 2^32, is less than 2^31 (R183). -/
def reached (now deadline : Tick) : Bool := (now - deadline).toNat < 2 ^ 31

/-- A deadline that is present and reached. -/
def due (now : Tick) (deadline : Option Tick) : Bool :=
  match deadline with
  | some d => reached now d
  | none => false

/-- The time left on a deadline, 0 once it is reached (R183, log 35). -/
def left (now deadline : Tick) : Nat := if reached now deadline then 0 else (deadline - now).toNat

/-- A number of ticks after a tick, modulo 2^32. -/
def after (now : Tick) (ticks : Nat) : Tick := now + BitVec.ofNat 32 ticks

/-- Ticks of a duration in seconds: 10,000 ticks per second. -/
def seconds (s : Nat) : Nat := s * 10000

/-- Ticks of a duration in milliseconds: 10 ticks per millisecond. -/
def millis (ms : Nat) : Nat := ms * 10

/-- Whole units, rounded up. -/
def ceilDiv (n unit : Nat) : Nat := (n + unit - 1) / unit

/-- Whole seconds left on a deadline, rounded up; absent when the deadline is. -/
def secondsLeft (now : Tick) (deadline : Option Tick) : Option Nat :=
  deadline.map fun d => ceilDiv (left now d) 10000

/-- Whole milliseconds left on a deadline, rounded up to a multiple; absent when the deadline is. -/
def millisLeft (multiple : Nat) (now : Tick) (deadline : Option Tick) : Option Nat :=
  deadline.map fun d => ceilDiv (left now d) (10 * multiple) * multiple

/-- The 3000 ms of the silence timers and of the spacing of PORT_CLEAR (R150, R157, R173, R175). -/
def silenceTicks : Nat := 30000

/-- A value clamped into a range (00_scope.md, "Clamping"). -/
def clamp (lo hi n : Nat) : Nat := if n < lo then lo else if hi < n then hi else n

end Sys2Proof.Machine
end

