-- ==== Sys2Proof/Machine/Defaults.lean ====
section
/-! DEFINITION. The factory defaults given with each setting (R187). -/

namespace Sys2Proof.Machine

/-- R180: admitted, class 2, W1 0 to 11, W2 1 to 0, which is empty. -/
def defaultProfile : Profile := ⟨true, 2, ⟨0, 11⟩, ⟨1, 0⟩⟩

/-- The factory default column of R145. -/
def defaultConfig : PortConfig :=
  { cls := .unused, responseMs := 500, wakeS := 20, idleS := 120, shieldS := 5,
    queueMode := .arrival, autoResume := true, jamLimit := 3, gapMs := 0, stallS := 10,
    idleDest := none, cueEnable := false }

/-- R163: floor SLEEP, ceiling READY. -/
def defaultLimits : PowerLimits := ⟨.sleep, .ready⟩

/-- R94. -/
def defaultCalibration : Calibration :=
  { xMin := 0, xMax := 4095, yMin := 0, yMax := 4095, swap := false, invertX := false,
    invertY := false, width := 1920, height := 1080, cols := 1, rows := 1 }

/-- R111: disabled, RANGE, z1 0, z2 0, HOLDER. -/
def defaultRoute : RouteEntry := ⟨false, .range, 0, 0, .holder⟩

/-- R120: armed no, window 1500 ms, NOTICE. -/
def defaultSeq : SeqConfig := ⟨false, 1500, .notice⟩

/-- The factory defaults of every setting (R187). -/
def defaultSettings : Settings :=
  { profiles := Table.fill 24 defaultProfile
    configs := Table.fill 12 defaultConfig
    limits := Table.fill 12 defaultLimits
    calibrations := Table.fill 12 defaultCalibration
    routes := Table.fill 12 (Table.fill 16 defaultRoute)
    sequences := Table.fill 12 defaultSeq
    cueEdge := .neither }

end Sys2Proof.Machine
end

