-- ==== Sys2Proof/Machine/Records.lean ====
section
/-! DEFINITION. The records that the hub's blocks keep, each with the value it takes at a reset. -/

namespace Sys2Proof.Machine

/-! ### Claim Arbiter -/

inductive Role where
  | holder | waiter
  deriving DecidableEq, Repr

/-- A claim record in use (R2); its port is the list it stands in. `closing` is the mark of R37. -/
structure Claim where
  kiosk : KioskId
  cls : Fin 4
  arrival : Tick
  role : Role
  suspended : Bool
  deadline : Option Tick
  grant : Option Tick
  closing : Bool
  deriving DecidableEq, Repr

/-- Reasons of CLAIM_STATE ENDED (R17). -/
inductive EndReason where
  | released | idle | reach | notAdmitted | closing | deviceLost
  deriving DecidableEq, Repr

/-- What a pending take waits for (R26). -/
inductive Waiting where
  | shield | scan | held | job
  deriving DecidableEq, Repr

/-- The takeover state of a port (R26): NONE, TAKE_PENDING with waiting-for and hold asked, STAFF_HOLD. -/
inductive TakeState where
  | free
  | pending (w : Waiting) (holdAsked : Bool)
  | staffHold
  deriving DecidableEq, Repr

/-- The takeover record of a port (R26). -/
structure Takeover where
  state : TakeState
  shield : Option Tick
  deriving DecidableEq, Repr

def Takeover.reset : Takeover := ⟨.free, none⟩

/-- The hall state (R35). -/
inductive Hall where
  | openHall | closing | quiet
  deriving DecidableEq, Repr

/-- The four counts of HALL_STATE (R36). -/
structure HallCounts where
  claims : Nat
  jobs : Nat
  scans : Nat
  checks : Nat
  deriving DecidableEq, Repr

/-! ### Print Queue Manager -/

inductive JobState where
  | queued | starting | printing | stalled | held | ending
  deriving DecidableEq, Repr

/-- The state a STALLED or HELD job returns to (R44). -/
inductive ResumeState where
  | starting | printing | ending
  deriving DecidableEq, Repr

/-- Reasons of FAILED (R58). -/
inductive FailReason where
  | streamError | kioskStall | jamLimit | jam | device | deviceSilent | deviceLost | portReset
  | kioskLost | notAdmitted
  deriving DecidableEq, Repr

inductive AbortCause where
  | cancel | drop
  | failed (r : FailReason)
  deriving DecidableEq, Repr

inductive CancelRequest where
  | no | kiosk | staff
  deriving DecidableEq, Repr

/-- An absent tray is the printer's default tray (R44). -/
structure JobOptions where
  duplex : Bool
  colour : Bool
  tray : Option Nat
  deriving DecidableEq, Repr

/-- A live job record (R44); its port is the printer it stands at. -/
structure Job where
  id : Nat
  kiosk : KioskId
  tag : Half
  priority : Nat
  copies : Nat
  pages : Nat
  options : JobOptions
  state : JobState
  resume : Option ResumeState
  fault : Option FaultKind
  holdSent : Bool
  cancelRequested : CancelRequest
  abortCause : Option AbortCause
  abortSent : Bool
  printed : Nat
  pageEnds : Nat
  jams : Nat
  submitted : Tick
  deriving DecidableEq, Repr

/-- What a printer port holds: the QUEUED jobs in submission order (R48), the job in flight (R43) and the
gap deadline (R51). -/
structure Printer where
  queue : List Job
  inflight : Option Job
  gap : Option Tick
  deriving DecidableEq, Repr

def Printer.reset : Printer := ⟨[], none, none⟩

/-- End states of a job (R56, R57). -/
inductive JobEnd where
  | done | doneDespiteCancel | cancelled
  | failed (r : FailReason)
  deriving DecidableEq, Repr

/-! ### Scan Controller -/

inductive ScanMode where
  | code | image
  deriving DecidableEq, Repr

inductive ScanState where
  | starting | scanning | ending
  deriving DecidableEq, Repr

/-- Abort reasons of a scan (R84). -/
inductive ScanReason where
  | stopped | grantEnded | returned | linkLost | kioskStall | device | deviceSilent | deviceLost
  | portReset
  deriving DecidableEq, Repr

/-- A code read: a symbology and a text of 1 to 64 bytes (R74, R81). -/
structure ScanCode where
  symbology : Byte
  text : List Byte
  deriving DecidableEq, Repr

/-- The record of a scan in flight (R74). -/
structure Scan where
  requester : LinkId
  mode : ScanMode
  resolution : Nat
  credit : Nat
  state : ScanState
  abortSent : Bool
  reason : Option ScanReason
  resultGiven : Bool
  code : Option ScanCode
  forwarded : BitVec 32
  reported : Option (BitVec 32)
  started : Tick
  deriving DecidableEq, Repr

/-- What a scanner port holds (R74, R90). -/
structure Scanner where
  scan : Option Scan
  document : Bool
  deriving DecidableEq, Repr

def Scanner.reset : Scanner := ⟨none, false⟩

/-! ### Touch Router -/

/-- Where a contact's records go (R100): a kiosk or STAFF by its link, or DROP. -/
inductive Dest where
  | link (l : LinkId)
  | drop
  deriving DecidableEq, Repr

/-- How the destination was chosen (R100); `neither` is the spec's NONE. -/
inductive Via where
  | holder | idle | neither
  deriving DecidableEq, Repr

/-- An entry of a contact table (R100); `live` is LIVE, its absence ORPHAN. -/
structure Contact where
  id : Fin 16
  dest : Dest
  via : Via
  live : Bool
  downTick : Tick
  x : Nat
  y : Nat
  zone : Nat
  edge : Bool
  deriving DecidableEq, Repr

inductive SeqState where
  | off
  | waitA
  | waitB (deadline : Tick)
  | matched
  deriving DecidableEq, Repr

inductive PendingCue where
  | absent
  | tick (t : Tick)
  | saturated
  deriving DecidableEq, Repr

/-- What a panel port holds (R94, R100, R108, R111, R120). -/
structure Panel where
  calibration : Calibration
  contacts : List Contact
  routes : Table RouteEntry 16
  seq : SeqConfig
  seqState : SeqState
  cue : PendingCue
  deriving DecidableEq, Repr

def Panel.reset : Panel :=
  ⟨defaultCalibration, [], Table.fill 16 defaultRoute, defaultSeq, .off, .absent⟩

inductive Phase where
  | down | move | up
  deriving DecidableEq, Repr

/-- A touch record (R99); `stamp` is the tick whose low 16 bits are the timestamp. -/
structure TouchRecord where
  port : PortId
  contact : Fin 16
  phase : Phase
  x : Nat
  y : Nat
  zone : Nat
  pressure : Byte
  stamp : Tick
  edge : Bool
  cancelled : Bool
  cue : Option Nat
  gap : Bool
  deriving DecidableEq, Repr

/-- The timestamp a touch record carries: the low 16 bits of its tick (R99). -/
def TouchRecord.timestamp (r : TouchRecord) : Half := r.stamp.setWidth 16

/-! ### Stream Buffers -/

/-- A buffered chunk (R126). -/
structure Chunk where
  seq : Byte
  pageEnd : Bool
  last : Bool
  data : List Byte
  deriving DecidableEq, Repr

inductive Direction where
  | pull | push
  deriving DecidableEq, Repr

/-- An OPEN stream record (R126); a CLOSED one is the absence of it. -/
structure Stream where
  direction : Direction
  partner : LinkId
  expected : Byte
  senderCredit : Nat
  owed : Nat
  sinkCredit : Nat
  buffers : List Chunk
  sourceEnded : Bool
  forwardHeld : Bool
  stallFrozen : Bool
  stall : Option Tick
  deriving DecidableEq, Repr

/-! ### Port Controllers -/

/-- Port condition (R148). -/
inductive Condition where
  | absent | identifying | serving | stalled | unresponsive | checking | resetting
  deriving DecidableEq, Repr

/-- Causes of PORT_STATE (R148). -/
inductive PortCause where
  | announce | identified | classMismatch | fault | cleared | wake | noResponse | restarted
  | adapterBack | silence | checkStart | checkEnd | portReset | classChange | load
  deriving DecidableEq, Repr

/-- The identity an adapter reported (R151). -/
structure Identity where
  model : Half
  duplex : Bool
  colour : Bool
  trays : List Nat
  deriving DecidableEq, Repr

/-- The waits of R155. -/
inductive Wait where
  | identAsk | printStart | printAbort | printHold | scanStart | scanAbort | echo | portClear
  | jobProgress | scanProgress | powerSet | testStart
  deriving DecidableEq, Repr

inductive CheckStatus where
  | none | running | done | error
  deriving DecidableEq, Repr

inductive CheckStep where
  | echo1 | echo2 | echo3 | echo4 | test
  deriving DecidableEq, Repr

inductive CheckItem where
  | notRun | pass | fail
  deriving DecidableEq, Repr

/-- The check result record of a port (R160). -/
structure CheckRecord where
  status : CheckStatus
  step : Option CheckStep
  echo : CheckItem
  adapter : CheckItem
  mechanism : CheckItem
  disturbed : Bool
  fault : Option FaultKind
  duration : Option Nat
  started : Option Tick
  ended : Option Tick
  deriving DecidableEq, Repr

def CheckRecord.reset : CheckRecord :=
  ⟨.none, none, .notRun, .notRun, .notRun, false, none, none, none, none⟩

/-- What a Port Controller holds beside the configuration (R148, R150, R155, R157, R160). -/
structure PortCtl where
  cond : Condition
  cause : PortCause
  fault : Option FaultKind
  identity : Option Identity
  mismatch : Bool
  waits : List Wait
  response : Option Tick
  silence : Option Tick
  clearSpacing : Option Tick
  check : CheckRecord
  deriving DecidableEq, Repr

def PortCtl.reset : PortCtl :=
  ⟨.absent, .announce, none, none, false, [], none, none, none, CheckRecord.reset⟩

/-! ### Power Governor -/

/-- What the Power Governor keeps for a port (R163); an absent reached level is UNKNOWN. -/
structure Power where
  floor : Level
  ceiling : Level
  votes : Table (Option Level) 24
  target : Level
  reached : Option Level
  moving : Bool
  deriving DecidableEq, Repr

def Power.reset : Power :=
  ⟨defaultLimits.floor, defaultLimits.ceiling, Table.fill 24 none, defaultLimits.floor, none, false⟩

/-! ### Settings Loader -/

inductive SaveState where
  | idle | saving | loading
  deriving DecidableEq, Repr

inductive DefaultCause where
  | blank | checkFailed | noMemory
  deriving DecidableEq, Repr

/-- The start-up outcome (R187, R188). -/
inductive StartOutcome where
  | loaded
  | defaulted (c : DefaultCause)
  deriving DecidableEq, Repr

/-- What the Settings Loader keeps, and the contents of the external memory it works on: the bytes of the
memory from its first on, those behind them never written (R184, log 12). -/
structure Loader where
  /-- the start-up read is in progress (R187) -/
  starting : Bool
  save : SaveState
  /-- the image that is being written (R185) -/
  writing : Option (List Byte)
  /-- a LOAD's reply is still awaited by the staff link (R186) -/
  awaiting : Bool
  outcome : Option StartOutcome
  lastSave : Option Bool
  memory : List Byte
  deriving DecidableEq, Repr

def Loader.reset : Loader := ⟨true, .idle, none, false, none, none, []⟩

/-! ### Notices (Delivery Queues) -/

/-- Standing of a CLAIM_STATE (R10). -/
inductive ClaimNews where
  | ended (r : EndReason)
  | holding
  | suspended
  deriving DecidableEq, Repr

/-- The state a JOB_STATE reports: a live state or an end state (R58). -/
inductive JobReport where
  | live (s : JobState)
  | ended (e : JobEnd)
  deriving DecidableEq, Repr

/-- JOB_STATE (R58). -/
structure JobNotice where
  id : Nat
  tag : Half
  port : PortId
  report : JobReport
  printed : Nat
  fault : Option FaultKind
  byStaff : Bool
  deriving DecidableEq, Repr

/-- PORT_STATE (R148). -/
structure PortNotice where
  port : PortId
  cls : PortClass
  cond : Condition
  before : Condition
  cause : PortCause
  fault : Option FaultKind
  identity : Option Identity
  reportedClass : Option Byte
  deriving DecidableEq, Repr

/-- SCAN_RESULT (R89); the reason is absent for DONE. -/
structure ScanResult where
  port : PortId
  reason : Option ScanReason
  mode : ScanMode
  code : Option ScanCode
  forwarded : Option (BitVec 32)
  reported : Option (BitVec 32)
  started : Tick
  deriving DecidableEq, Repr

inductive AttendantCause where
  | zone | sequence
  deriving DecidableEq, Repr

/-- ATTENDANT (R116). -/
structure Attendant where
  port : PortId
  cause : AttendantCause
  zone : Nat
  contact : Fin 16
  tick : Tick
  take : Bool
  deriving DecidableEq, Repr

/-- Causes of KIOSK_STATE (R182). -/
inductive KioskCause where
  | hello | bye | silence | drop | setAdmission | profile | load
  deriving DecidableEq, Repr

/-- The contents of one notice or touch record. -/
inductive NoticeBody where
  | claimState (p : PortId) (n : ClaimNews)
  | jobState (n : JobNotice)
  | docState (p : PortId) (present : Bool)
  | scanResult (r : ScanResult)
  | touch (r : TouchRecord)
  | portState (n : PortNotice)
  | takeState (p : PortId) (t : TakeState) (shieldLeft : Option Nat)
  | hallState (h : Hall) (c : HallCounts)
  | kioskState (k : KioskId) (up : Bool) (profile : Profile) (cause : KioskCause)
  | checkResult (p : PortId) (r : CheckRecord)
  | saveResult (ok : Bool)
  | hubState (outcome : Option StartOutcome) (save : SaveState) (format : Nat)
  | attendant (a : Attendant)
  deriving DecidableEq, Repr

/-- The keys of R138. -/
inductive NoticeKey where
  | claim (p : PortId)
  | job (id : Nat)
  | document (p : PortId)
  | port (p : PortId)
  | takeover (p : PortId)
  | kiosk (k : KioskId)
  | check (p : PortId)
  | hall
  | save
  | hub
  deriving DecidableEq, Repr

/-- An item of an outbound queue (R136), with its LOST flag. -/
structure Item where
  body : NoticeBody
  lost : Bool
  deriving DecidableEq, Repr

/-! ### Replies -/

/-- Result codes (10, "Result codes"). -/
inductive ResultCode where
  | ok | unknownKind | notAdmitted | badValue | noSuchPort | outOfReach | wrongClass | duplicate
  | claimLimit | poolFull | notHolder | suspended | closing | jobLimit | noSuchJob | busy | portFault
  | powerHeld
  deriving DecidableEq, Repr

/-- A kiosk's standing on a port (R9, R10). -/
inductive Standing where
  | none
  | holding (idleLeft : Option Nat)
  | suspended
  | waiting (position : Nat)
  deriving DecidableEq, Repr

/-- An entry of the CLAIM_LIST reply (R25). -/
structure ClaimEntry where
  kiosk : KioskId
  cls : Fin 4
  role : Role
  suspended : Bool
  arrival : Tick
  position : Option Nat
  grant : Option Tick
  idleLeft : Option Nat
  deriving DecidableEq, Repr

/-- A summary of a job in the QUEUE_LIST reply (R72). -/
structure JobSummary where
  id : Nat
  kiosk : KioskId
  tag : Half
  priority : Nat
  copies : Nat
  pages : Nat
  state : JobState
  printed : Nat
  jams : Nat
  cancelRequested : CancelRequest
  submitted : Tick
  deriving DecidableEq, Repr

/-- What PORT_QUERY tells a kiosk (R162); the last two pairs by class. -/
structure PortView where
  port : PortId
  cls : PortClass
  cond : Condition
  fault : Option FaultKind
  reached : Option Level
  inStaffHands : Bool
  hall : Hall
  held : Option Bool
  waiters : Option Nat
  jobInFlight : Option Bool
  queuedJobs : Option Nat
  deriving DecidableEq, Repr

/-- What PORT_QUERY tells the staff console beside that (R162). -/
structure StaffPortView where
  config : PortConfig
  identity : Option Identity
  mismatch : Bool
  responseLeft : Option Nat
  silenceLeft : Option Nat
  check : CheckRecord
  floor : Level
  ceiling : Level
  target : Level
  deriving DecidableEq, Repr

/-- What KIOSK_QUERY tells (R182). -/
structure KioskView where
  profile : Profile
  up : Bool
  outstanding : Bool
  claims : Nat
  jobs : Nat
  votes : Nat
  items : Nat
  touches : Nat
  gapPending : Bool
  silenceLeft : Option Nat
  deriving DecidableEq, Repr

/-- Outcome of a read of the settings image (R184, R186). -/
inductive ReadOutcome where
  | applied | blank | checkFailed | noMemory
  deriving DecidableEq, Repr

/-- The fields of a reply after the three bytes every reply has. -/
inductive ReplyFields where
  | bare
  | helloKiosk (k : KioskId) (profile : Profile) (hall : Hall)
  | helloStaff (hall : Hall) (up : List Bool)
  | claimed (waiting : Option Nat)
  | standing (st : Standing)
  | claimView (st : Standing) (waiters : Nat) (held staff : Bool)
  | submitted (id : Nat) (state : JobState) (place : Option Nat)
  | cancelled (r : JobReport)
  | dropped (k : KioskId) (r : JobReport)
  | jobRecord (p : PortId) (j : Job) (place : Option Nat)
  | scanStarted (resolution credit : Nat)
  | scanStopped (stopped : Bool)
  | vote (p : PortId) (v : Option Level) (target : Level) (reached : Option Level)
  | portView (v : PortView)
  | staffPortView (v : PortView) (w : StaffPortView)
  | profile (p : Profile)
  | kioskView (v : KioskView)
  | linkState (up : Bool)
  | config (c : PortConfig)
  | calibration (c : Calibration)
  | routeEntry (e : RouteEntry)
  | routeTable (p : PortId) (idle : Option KioskId) (st : SeqState) (entries : Table RouteEntry 16)
  | seqConfig (c : SeqConfig) (st : SeqState)
  | seqView (c : SeqConfig) (st : SeqState) (msLeft : Option Nat)
  | takeover (t : TakeState)
  | returned (shieldS : Option Nat)
  | hall (h : Hall)
  | limits (floor ceiling target : Level) (reached : Option Level)
  | condition (c : Condition)
  | queueList (p : PortId) (m : QueueMode) (inflight : Option JobSummary) (gapLeft : Option Nat)
      (total start : Nat) (entries : List JobSummary)
  | claimList (p : PortId) (t : TakeState) (total start : Nat) (entries : List ClaimEntry)
  | loadOutcome (o : ReadOutcome)
  | identity (vendor part revision format : Nat) (tick : Tick) (outcome : Option StartOutcome)
      (save : SaveState) (lastSave : Option Bool)
  deriving DecidableEq, Repr

/-- A reply: the kind of its request, its result code and its fields; OVERRUN is set at sending. -/
structure Reply where
  kind : Byte
  code : ResultCode
  fields : ReplyFields
  deriving DecidableEq, Repr

/-! ### Link units and transmitters -/

/-- A frame that a kiosk or staff link's transmitter holds while it sends it (R143). -/
inductive LinkFrame where
  | reply (r : Reply) (overrun : Bool)
  | notice (i : Item)
  | credit (p : PortId) (n : Nat)
  | chunk (p : PortId) (c : Chunk)
  deriving DecidableEq, Repr

/-- Whose turn it is at a link's transmitter (R143). -/
inductive Turn where
  | notices | streams
  deriving DecidableEq, Repr

/-- A kiosk or staff link: link unit, delivery queue and transmitter (list before R173, R136, R143). -/
structure LinkUnit where
  up : Bool
  silence : Option Tick
  outstanding : Bool
  overrun : Bool
  reply : Option Reply
  queue : List Item
  gap : Bool
  turn : Turn
  lastPort : PortId
  sending : Option LinkFrame
  rx : List Byte
  deriving DecidableEq, Repr

def LinkUnit.reset : LinkUnit :=
  ⟨false, none, false, false, none, [], false, .notices, 11, none, []⟩

/-- A command frame to an adapter (R144). -/
inductive DeviceCommand where
  | identAsk
  | powerSet (l : Level)
  | printStart (id copies pages : Nat) (o : JobOptions)
  | printAbort
  | printHold
  | printResume
  | scanStart (m : ScanMode) (resolution : Nat)
  | scanAbort
  | testStart (duration : Nat)
  | echo (data : List Byte)
  | portClear
  deriving DecidableEq, Repr

/-- A frame that a device link's transmitter holds while it sends it (R144). -/
inductive DeviceFrame where
  | command (c : DeviceCommand)
  | chunk (p : PortId) (c : Chunk)
  | credit (p : PortId) (n : Nat)
  deriving DecidableEq, Repr

/-- A device link: the command frames that wait, the transmitter and the receiver (R144, R171). -/
structure DeviceWire where
  commands : List DeviceCommand
  sending : Option DeviceFrame
  rx : List Byte
  deriving DecidableEq, Repr

def DeviceWire.reset : DeviceWire := ⟨[], none, []⟩

end Sys2Proof.Machine
end

