-- ==== Sys2Proof/Machine/State.lean ====
section
/-! DEFINITION. The state of the hub, block by block (00_scope.md, "The blocks"), the reasons a step can
stop, and the hub right after a reset. -/

namespace Sys2Proof.Machine

/-- The hub. Tables of twelve are by port, tables of twenty-four by kiosk. -/
structure State where
  /-- Time Base: the tick counter (R183) -/
  tick : Tick
  /-- Time Base: the cue line's last level (R183) -/
  cueLevel : Bool
  /-- Claim Arbiter: the claim lists (R3) -/
  claims : Table (List Claim) 12
  /-- Claim Arbiter: the takeover records (R26) -/
  takes : Table Takeover 12
  /-- Claim Arbiter: the hall state (R35) -/
  hall : Hall
  /-- Print Queue Manager: queues, jobs in flight, gap deadlines (R43, R48, R51) -/
  printers : Table Printer 12
  /-- Print Queue Manager: the next job id (R45) -/
  nextJob : Nat
  /-- Scan Controller: scan records and document states (R74, R90) -/
  scanners : Table Scanner 12
  /-- Touch Router: calibration, contacts, routes, sequence triggers, pending cues -/
  panels : Table Panel 12
  /-- Touch Router: the cue edge of the hub (R108) -/
  cueEdge : CueEdge
  /-- Stream Buffers: an open stream record, or none when CLOSED (R126) -/
  streams : Table (Option Stream) 12
  /-- Kiosk Link Units with their Delivery Queues and transmitters -/
  kiosks : Table LinkUnit 24
  /-- Staff Link Unit with its Delivery Queue and transmitter -/
  staff : LinkUnit
  /-- Kiosk Profiles table (R180) -/
  profiles : Table Profile 24
  /-- Port configuration records (R145) -/
  configs : Table PortConfig 12
  /-- Port Controllers -/
  ctls : Table PortCtl 12
  /-- Power Governor (R163) -/
  power : Table Power 12
  /-- Device links: waiting command frames, transmitters, receivers (R144, R171) -/
  wires : Table DeviceWire 12
  /-- Settings Loader and the external settings memory (R184 to R188) -/
  loader : Loader
  /-- the model's own: how many free values have been drawn (log 11) -/
  draws : Nat
  /-- the model's own: the commands that wait, first in first out (log 1) -/
  pending : List Instr
  deriving DecidableEq, Repr

/-- Reasons to stop with a fault. The spec gives the hub none: every event has an effect, gets a refusal
reply or is discarded. So nobody raises one. -/
inductive Fault where
  deriving DecidableEq, Repr

/-- Reasons to refuse a command. -/
inductive Refusal where
  /-- raised by an arm of `exec` whose command has no meaning yet; safe, for the machine stops -/
  | notModelled (mnemonic : String)
  deriving DecidableEq, Repr

/-- The hub right after power-on, the reset line or HUB_RESET (R187), its start-up read begun. Values the
spec does not give are named in log 13 and log 23. -/
def State.reset : State where
  tick := 0
  cueLevel := false
  claims := Table.fill 12 []
  takes := Table.fill 12 Takeover.reset
  hall := .openHall
  printers := Table.fill 12 Printer.reset
  nextJob := 1
  scanners := Table.fill 12 Scanner.reset
  panels := Table.fill 12 Panel.reset
  cueEdge := .neither
  streams := Table.fill 12 none
  kiosks := Table.fill 24 LinkUnit.reset
  staff := LinkUnit.reset
  profiles := Table.fill 24 defaultProfile
  configs := Table.fill 12 defaultConfig
  ctls := Table.fill 12 PortCtl.reset
  power := Table.fill 12 Power.reset
  wires := Table.fill 12 DeviceWire.reset
  loader := Loader.reset
  draws := 0
  pending := []

end Sys2Proof.Machine
end

