-- ==== Sys2Proof/Machine/Operands.lean ====
section
/-! DEFINITION. The operands of the commands: from the raw values of a body to the values a rule speaks
of, with the ranges, clamps and refusals that the owning rule gives (R190: a value outside its set is handled
by the owning rule). -/

namespace Sys2Proof.Machine

/-! ### Numbers of ports, kiosks and indices -/

/-- A port number 0 to 11. -/
def portOf (b : Byte) : Option PortId := if h : b.toNat < 12 then some ⟨b.toNat, h⟩ else none

/-- A kiosk number 0 to 23. -/
def kioskOf (b : Byte) : Option KioskId := if h : b.toNat < 24 then some ⟨b.toNat, h⟩ else none

/-- A route index or contact id 0 to 15. -/
def sixteenOf (b : Byte) : Option (Fin 16) := if h : b.toNat < 16 then some ⟨b.toNat, h⟩ else none

/-- A claim class 0 to 3. -/
def claimClassOf (b : Byte) : Option (Fin 4) := if h : b.toNat < 4 then some ⟨b.toNat, h⟩ else none

/-! ### Values of a set (12, "Common encodings" and "Stored records") -/

/-- A yes-or-no value that fills a byte: any other value lies outside its set. -/
def yesNoOf (b : Byte) : Option Bool :=
  if b = 0 then some false else if b = 1 then some true else none

def classOf (b : Byte) : Option PortClass :=
  if b = 0 then some .printer else if b = 1 then some .scanner
  else if b = 2 then some .panel else if b = 3 then some .unused else none

def queueModeOf (b : Byte) : Option QueueMode :=
  if b = 0 then some .arrival else if b = 1 then some .priority else none

def levelOf (b : Byte) : Option Level :=
  if b = 0 then some .off else if b = 1 then some .sleep
  else if b = 2 then some .standby else if b = 3 then some .ready else none

/-- A reported level outside OFF to READY is taken as OFF (R151, R169). -/
def reportedLevel (b : Byte) : Level := (levelOf b).getD .off

/-- A voted level above 3 is taken as READY (R164). -/
def votedLevel (b : Byte) : Level := (levelOf b).getD .ready

def cueEdgeOf (b : Byte) : Option CueEdge :=
  if b = 0 then some .neither else if b = 1 then some .rising
  else if b = 2 then some .falling else if b = 3 then some .both else none

def responseOf (b : Byte) : Option SeqResponse :=
  if b = 0 then some .notice else if b = 1 then some .noticeTake else none

def scanModeOf (b : Byte) : Option ScanMode :=
  if b = 0 then some .code else if b = 1 then some .image else none

/-- A fault kind outside the six is taken as OTHER (R153). -/
def faultOf (b : Byte) : FaultKind :=
  if b = 1 then .jam else if b = 2 then .paperOut else if b = 3 then .coverOpen
  else if b = 4 then .lamp else if b = 5 then .feed else .other

/-- DONE is 0; any other outcome is taken as ABORTED (12, "Bodies of received frames"). -/
def outcomeDone (b : Byte) : Bool := b == 0

/-- The capabilities byte of IDENT: bit 0 duplex, bit 1 colour, bits 2 to 5 the trays present. -/
def identityOf (model : Half) (cap : Byte) : Identity :=
  { model := model, duplex := cap.getLsbD 0, colour := cap.getLsbD 1,
    trays := [0, 1, 2, 3].filter fun t => cap.getLsbD (2 + t) }

/-! ### Numbers clamped by their rule -/

/-- A credit of 0 is taken as 1 and one above 8 as 8 (R52). -/
def acceptCredit (b : Byte) : Nat := clamp 1 8 b.toNat

/-- A CREDIT frame's count: 0 is ignored, above 8 is taken as 8 (R130, R131). -/
def creditCount (b : Byte) : Nat := clamp 0 8 b.toNat

/-- Copies 0 becomes 1 and above 9 becomes 9 (R47). -/
def copiesOf (b : Byte) : Nat := clamp 1 9 b.toNat

/-- Priority above 7 becomes 7 (R47). -/
def priorityOf (b : Byte) : Nat := clamp 0 7 b.toNat

/-- Declared pages above 999 become 999; 0 is refused by R46 (R47). -/
def pagesOf (h : Half) : Nat := clamp 0 999 h.toNat

/-- The options of a SUBMIT: bit 0 duplex, bit 1 colour, and the tray (12, SUBMIT). -/
def jobOptionsOf (b : SubmitBody) : JobOptions :=
  ⟨b.options.getLsbD 0, b.options.getLsbD 1, b.tray.map (·.toNat)⟩

/-- A resolution is clamped into 100 to 600 and rounded down to a multiple of 50 (R78). -/
def resolutionOf (h : Half) : Nat := clamp 100 600 h.toNat / 50 * 50

/-- An initial credit is clamped into 1 to 4 (R78). -/
def scanCredit (b : Byte) : Nat := clamp 1 4 b.toNat

/-- A check's duration of 0 is taken as 3 seconds and one above 10 as 10 (R159). -/
def checkDuration (b : Byte) : Nat := if b = 0 then 3 else clamp 1 10 b.toNat

/-- A sequence window is clamped into 100 to 5000 ms (R124). -/
def windowOf (h : Half) : Nat := clamp 100 5000 h.toNat

/-! ### Stored records -/

/-- The idle destination of a received configuration: absent when its flag is clear (R190), and not a
kiosk when present and above 23 (R146). -/
def idleDestOf (flags dest : Byte) : Option (Option KioskId) :=
  if flags.getLsbD 0 then (kioskOf dest).map some else some none

/-- A received port configuration, clamped as R146 says; none for a value outside its set. -/
def configOf (b : PortSetBody) : Option PortConfig := do
  let cls ← classOf b.cls
  let mode ← queueModeOf b.queueMode
  let auto ← yesNoOf b.autoResume
  let cue ← yesNoOf b.cueEnable
  let dest ← idleDestOf b.flags b.idleDest
  some
    { cls := cls
      responseMs := clamp 10 2550 b.responseMs.toNat / 10 * 10
      wakeS := clamp 1 120 b.wakeS.toNat
      idleS := clamp 0 3600 b.idleS.toNat
      shieldS := clamp 0 60 b.shieldS.toNat
      queueMode := mode
      autoResume := auto
      jamLimit := clamp 0 7 b.jamLimit.toNat
      gapMs := clamp 0 25500 b.gapMs.toNat / 100 * 100
      stallS := clamp 1 60 b.stallS.toNat
      idleDest := dest
      cueEnable := cue }

/-- A received calibration record; none when R95 answers BAD_VALUE. -/
def calibrationOf (b : CalibrateBody) : Option Calibration :=
  let c : Calibration :=
    { xMin := b.xMin.toNat, xMax := b.xMax.toNat, yMin := b.yMin.toNat, yMax := b.yMax.toNat
      swap := b.flags.getLsbD 0, invertX := b.flags.getLsbD 1, invertY := b.flags.getLsbD 2
      width := b.width.toNat, height := b.height.toNat, cols := b.cols.toNat, rows := b.rows.toNat }
  if c.xMax ≤ c.xMin ∨ c.yMax ≤ c.yMin ∨ 4095 < c.xMax ∨ 4095 < c.yMax then none
  else if c.width = 0 ∨ 8192 < c.width ∨ c.height = 0 ∨ 8192 < c.height then none
  else if c.cols = 0 ∨ 16 < c.cols ∨ c.rows = 0 ∨ 16 < c.rows then none
  else some c

/-- The type in bits 1 and 2 of a route entry's control byte. -/
def routeKindOf (control : Byte) : Option RouteKind :=
  match (control.extractLsb' 1 2).toNat with
  | 0 => some .range
  | 1 => some .pair
  | 2 => some .mask
  | _ => none

/-- The action in bits 3 to 5 of a route entry's control byte; KIOSK needs a kiosk present (bit 6) and at
most 23, and a kiosk given with another action is not stored (R118). -/
def routeActionOf (control kiosk : Byte) : Option RouteAction :=
  match (control.extractLsb' 3 3).toNat with
  | 0 => some .holder
  | 1 => if control.getLsbD 6 then (kioskOf kiosk).map .kiosk else none
  | 2 => some .staff
  | 3 => some .drop
  | 4 => some .seqA
  | 5 => some .seqB
  | _ => none

/-- A received route entry; none for a value outside its set (R118). -/
def routeEntryOf (b : RouteSetBody) : Option RouteEntry := do
  let kind ← routeKindOf b.control
  let action ← routeActionOf b.control b.kiosk
  some ⟨b.control.getLsbD 0, kind, b.z1, b.z2, action⟩

/-- A received sequence configuration; none for a value outside its set (R124). -/
def seqConfigOf (b : SeqSetBody) : Option SeqConfig := do
  let armed ← yesNoOf b.armed
  let response ← responseOf b.response
  some ⟨armed, windowOf b.windowMs, response⟩

/-- A received profile, given the admitted flag it leaves alone; none for a value out of range (R181). -/
def profileOf (admitted : Bool) (b : ProfileBody) : Option Profile := do
  let cls ← claimClassOf b.cls
  let b1 ← portOf b.w1Base
  let l1 ← portOf b.w1Limit
  let b2 ← portOf b.w2Base
  let l2 ← portOf b.w2Limit
  some ⟨admitted, cls, ⟨b1, l1⟩, ⟨b2, l2⟩⟩

/-- A received floor and ceiling; none for a level above 3 or a floor above the ceiling (R165). -/
def limitsOf (b : LimitBody) : Option PowerLimits := do
  let floor ← levelOf b.floor
  let ceiling ← levelOf b.ceiling
  if ceiling.value < floor.value then none else some ⟨floor, ceiling⟩

/-- A received chunk. -/
def chunkOf (b : ChunkBody) : Chunk := ⟨b.seq, b.flags.getLsbD 0, b.flags.getLsbD 1, b.data⟩

end Sys2Proof.Machine
end

