-- ==== Sys2Proof/Machine/Flags.lean ====
section
/-! DEFINITION. The views that several rules read: reach, standing and counts of the claim lists, counts of
the job pool, serving order, demand and target of the Power Governor, and the QUIET condition. None of them
changes the state. -/

namespace Sys2Proof.Machine

/-! ### Links and profiles -/

/-- The link unit of a kiosk or staff link. -/
def State.link (s : State) (l : LinkId) : LinkUnit :=
  match l with
  | .kiosk k => s.kiosks.get k
  | .staff => s.staff

/-- A port lies within a window (R180). -/
def Window.has (w : Window) (p : PortId) : Bool := w.base ≤ p && p ≤ w.limit

/-- A port lies within W1 or W2 of a profile. -/
def inReach (f : Profile) (p : PortId) : Bool := Window.has f.w1 p || Window.has f.w2 p

/-- Two windows have the same set of ports (R181). -/
def sameSet (a b : Window) : Bool := allPorts.all fun p => Window.has a p == Window.has b p

/-- Class of a port. -/
def State.cls (s : State) (p : PortId) : PortClass := (s.configs.get p).cls

/-- Condition of a port. -/
def State.cond (s : State) (p : PortId) : Condition := (s.ctls.get p).cond

/-- The port's takeover state is TAKE_PENDING or STAFF_HOLD. -/
def TakeState.inStaffHands : TakeState → Bool
  | .free => false
  | _ => true

/-! ### Claim lists (R1, R3) -/

/-- The record whose role is HOLDER. -/
def holderOf (l : List Claim) : Option Claim := l.find? fun c => c.role == .holder

/-- The waiters of a list, in list order. -/
def waitersOf (l : List Claim) : List Claim := l.filter fun c => c.role == .waiter

/-- A kiosk's record in a list. -/
def claimOf (l : List Claim) (k : KioskId) : Option Claim := l.find? fun c => c.kiosk == k

/-- The kiosk that holds a port. -/
def State.holder (s : State) (p : PortId) : Option KioskId := (holderOf (s.claims.get p)).map (·.kiosk)

/-- A waiter's place among the waiters, counted from 1 (R3). -/
def positionOf (l : List Claim) (k : KioskId) : Nat := (waitersOf l).findIdx (fun c => c.kiosk == k) + 1

/-- Records in use of the whole pool (R1). -/
def State.claimCount (s : State) : Nat := (allPorts.map fun p => (s.claims.get p).length).sum

/-- Records in use of one kiosk (R1). -/
def State.kioskClaims (s : State) (k : KioskId) : Nat :=
  (allPorts.map fun p => (s.claims.get p).countP fun c => c.kiosk == k).sum

/-- A new waiter's place: behind the holder and every waiter of the same or a better class (R3). -/
def insertWaiter (c : Claim) (l : List Claim) : List Claim :=
  let ahead := fun d : Claim => d.role == .holder || d.cls ≤ c.cls
  l.takeWhile ahead ++ c :: l.dropWhile ahead

/-- A holder's idle deadline is frozen: it is suspended, or a scan of its own is in flight, also an
aborted one from an earlier grant (R13, log 34). -/
def State.frozen (s : State) (p : PortId) (c : Claim) : Bool :=
  c.suspended ||
    (match (s.scanners.get p).scan with
     | some x => x.requester == .kiosk c.kiosk
     | none => false)

/-- A kiosk's standing on a port (R9). -/
def State.standing (s : State) (p : PortId) (k : KioskId) : Standing :=
  match claimOf (s.claims.get p) k with
  | none => .none
  | some c =>
    match c.role with
    | .waiter => .waiting (positionOf (s.claims.get p) k)
    | .holder => if c.suspended then .suspended else .holding (secondsLeft s.tick c.deadline)

/-! ### Job pool (R43, R48) -/

/-- A port's live jobs, the one in flight first. -/
def Printer.jobs (x : Printer) : List Job := x.inflight.toList ++ x.queue

/-- Live job records of the whole pool (R43). -/
def State.jobCount (s : State) : Nat := (allPorts.map fun p => (Printer.jobs (s.printers.get p)).length).sum

/-- Live job records of one kiosk (R43). -/
def State.kioskJobs (s : State) (k : KioskId) : Nat :=
  (allPorts.map fun p => (Printer.jobs (s.printers.get p)).countP fun j => j.kiosk == k).sum

/-- An id names a live job (R45). -/
def State.jobLive (s : State) (id : Nat) : Bool :=
  allPorts.any fun p => (Printer.jobs (s.printers.get p)).any fun j => j.id == id

/-- The live job of an id, with its port and whether it is in flight. -/
def State.findJob (s : State) (id : Nat) : Option (PortId × Job) :=
  allPorts.findSome? fun p => ((Printer.jobs (s.printers.get p)).find? fun j => j.id == id).map fun j => (p, j)

/-- Insertion by priority number, behind those of equal priority (R48). -/
def insertByPriority (j : Job) : List Job → List Job
  | [] => [j]
  | x :: xs => if j.priority < x.priority then j :: x :: xs else x :: insertByPriority j xs

/-- The serving order of a queue under a mode (R48). -/
def servingOrder (m : QueueMode) (queue : List Job) : List Job :=
  match m with
  | .arrival => queue
  | .priority => queue.foldl (fun acc j => insertByPriority j acc) []

/-- The serving order of a port. -/
def State.serving (s : State) (p : PortId) : List Job :=
  servingOrder (s.configs.get p).queueMode (s.printers.get p).queue

/-- A queued job's 1-based place in the serving order. -/
def State.placeOf (s : State) (p : PortId) (id : Nat) : Option Nat :=
  let order := s.serving p
  if order.any fun j => j.id == id then some (order.findIdx (fun j => j.id == id) + 1) else none

/-! ### Scans and checks -/

/-- A port has a scan in flight (R74). -/
def State.scanInFlight (s : State) (p : PortId) : Bool := (s.scanners.get p).scan.isSome

/-- The port's scan in flight is a kiosk scan (R74). -/
def State.kioskScan (s : State) (p : PortId) : Bool :=
  match (s.scanners.get p).scan with
  | some x => x.requester != .staff
  | none => false

/-- A port check is running on the port. -/
def State.checkRunning (s : State) (p : PortId) : Bool := (s.ctls.get p).check.status == .running

/-- The four counts of HALL_STATE (R36). -/
def State.counts (s : State) : HallCounts where
  claims := s.claimCount
  jobs := s.jobCount
  scans := allPorts.countP s.kioskScan
  checks := allPorts.countP s.checkRunning

/-- The QUIET condition (R40): all four counts are 0. -/
def State.quietCondition (s : State) : Bool := s.counts == ⟨0, 0, 0, 0⟩

/-- At least one of the four counts is lower in the second (R36, R40). -/
def someFell (a b : HallCounts) : Bool :=
  b.claims < a.claims || b.jobs < a.jobs || b.scans < a.scans || b.checks < a.checks

/-! ### Power: demand and target (R167) -/

/-- The higher of two levels. -/
def higher (a b : Level) : Level := if a.value < b.value then b else a

/-- The lower of two levels. -/
def lower (a b : Level) : Level := if b.value < a.value then b else a

/-- In-flight demand (R167). -/
def State.inFlightDemand (s : State) (p : PortId) : Level :=
  if (s.printers.get p).inflight.isSome || s.scanInFlight p || s.checkRunning p
      || (s.takes.get p).state == .staffHold then .ready
  else .off

/-- Standing demand (R167). -/
def State.standingDemand (s : State) (p : PortId) : Level :=
  let l := s.claims.get p
  if (holderOf l).any (fun c => !c.suspended) || !(s.printers.get p).queue.isEmpty then .ready
  else if !(waitersOf l).isEmpty then .standby
  else .off

/-- The highest vote, OFF when there is none or while the hall is QUIET (R167). -/
def State.highestVote (s : State) (p : PortId) : Level :=
  if s.hall == .quiet then .off
  else allKiosks.foldl (fun acc k => higher acc (((s.power.get p).votes.get k).getD .off)) .off

/-- The target of a port (R167). -/
def State.targetOf (s : State) (p : PortId) : Level :=
  let w := s.power.get p
  higher (s.inFlightDemand p)
    (lower (higher (higher w.floor (s.standingDemand p)) (s.highestVote p)) w.ceiling)

/-- The port's reached power level is READY; UNKNOWN is below READY (R163). -/
def State.atReady (s : State) (p : PortId) : Bool := (s.power.get p).reached == some .ready

end Sys2Proof.Machine
end

