-- ==== Sys2Proof/Machine/Ops.lean ====
section
/-! DEFINITION. The named operations that the blocks share: one record of a block changed, the Delivery
Queues (R136 to R142), replies (R137), and command frames to adapters with the response timer's waits
(R144, R155). -/

namespace Sys2Proof.Machine

/-! ### One record of a block changed -/

def onClaims (p : PortId) (f : List Claim → List Claim) (s : State) : State :=
  { s with claims := s.claims.modify p f }

def onTake (p : PortId) (f : Takeover → Takeover) (s : State) : State :=
  { s with takes := s.takes.modify p f }

def onPrinter (p : PortId) (f : Printer → Printer) (s : State) : State :=
  { s with printers := s.printers.modify p f }

def onScanner (p : PortId) (f : Scanner → Scanner) (s : State) : State :=
  { s with scanners := s.scanners.modify p f }

def onPanel (p : PortId) (f : Panel → Panel) (s : State) : State :=
  { s with panels := s.panels.modify p f }

def onStream (p : PortId) (f : Option Stream → Option Stream) (s : State) : State :=
  { s with streams := s.streams.modify p f }

def onCtl (p : PortId) (f : PortCtl → PortCtl) (s : State) : State :=
  { s with ctls := s.ctls.modify p f }

def onPower (p : PortId) (f : Power → Power) (s : State) : State :=
  { s with power := s.power.modify p f }

def onWire (p : PortId) (f : DeviceWire → DeviceWire) (s : State) : State :=
  { s with wires := s.wires.modify p f }

def onLink (l : LinkId) (f : LinkUnit → LinkUnit) (s : State) : State :=
  match l with
  | .kiosk k => { s with kiosks := s.kiosks.modify k f }
  | .staff => { s with staff := f s.staff }

def onLoader (f : Loader → Loader) (s : State) : State := { s with loader := f s.loader }

/-- An operation on every port, D0 first (log 25). -/
def forPorts (f : PortId → State → State) (s : State) : State :=
  allPorts.foldl (fun s p => f p s) s

/-- An operation on every kiosk, K0 first (log 25). -/
def forKiosks (f : KioskId → State → State) (s : State) : State :=
  allKiosks.foldl (fun s k => f k s) s

/-! ### The Delivery Queues -/

/-- The key of a notice; an event item has none (R138, R139). -/
def keyOf : NoticeBody → Option NoticeKey
  | .claimState p _ => some (.claim p)
  | .jobState n => some (.job n.id)
  | .docState p _ => some (.document p)
  | .portState n => some (.port n.port)
  | .takeState p _ _ => some (.takeover p)
  | .hallState _ _ => some .hall
  | .kioskState k _ _ _ => some (.kiosk k)
  | .checkResult p _ => some (.check p)
  | .saveResult _ => some .save
  | .hubState _ _ _ => some .hub
  | .scanResult _ => none
  | .touch _ => none
  | .attendant _ => none

/-- The touch record an item is. -/
def Item.touch? (i : Item) : Option TouchRecord :=
  match i.body with
  | .touch r => some r
  | _ => none

/-- Touch records of a queue. -/
def touchCount (q : List Item) : Nat := q.countP fun i => (Item.touch? i).isSome

/-- A notice of the same key, if one is queued, is replaced in place and LOST is kept (R138). -/
def replaceKeyed (b : NoticeBody) (q : List Item) : List Item :=
  q.map fun i => if keyOf i.body = keyOf b ∧ (keyOf b).isSome then ⟨b, i.lost⟩ else i

/-- A notice of the same key is queued. -/
def hasKey (b : NoticeBody) (q : List Item) : Bool :=
  q.any fun i => (keyOf b).isSome && keyOf i.body == keyOf b

/-- The queue without its oldest touch record, and that record. -/
def dropOldestTouch : List Item → Option (TouchRecord × List Item)
  | [] => none
  | i :: q =>
    match Item.touch? i with
    | some r => some (r, q)
    | none => (dropOldestTouch q).map fun x => (x.1, i :: x.2)

/-- A contact of a panel becomes ORPHAN. -/
def orphan (p : PortId) (id : Fin 16) (s : State) : State :=
  onPanel p (fun x => { x with contacts := x.contacts.map fun c =>
    if c.id = id then { c with live := false } else c }) s

/-- A DOWN was discarded from a link's queue to make room: its contact becomes ORPHAN if it is still LIVE,
with that link as its destination and that DOWN's tick as its down tick (R141). -/
def discarded (l : LinkId) (r : TouchRecord) (s : State) : State :=
  if r.phase = .down then
    onPanel r.port (fun x => { x with contacts := x.contacts.map fun c =>
      if c.id = r.contact ∧ c.live = true ∧ c.dest = .link l ∧ c.downTick = r.stamp then
        { c with live := false }
      else c }) s
  else s

/-- A new item is placed at the tail, with room made first in a full queue (R142). -/
def placeItem (l : LinkId) (b : NoticeBody) (s : State) : State :=
  let q := (s.link l).queue
  if q.length < Config.queueItems then onLink l (fun u => { u with queue := q ++ [⟨b, false⟩] }) s
  else
    match dropOldestTouch q with
    | some (r, q') =>
      discarded l r (onLink l (fun u => { u with queue := q' ++ [⟨b, false⟩], gap := true }) s)
    | none => onLink l (fun u => { u with queue := q.drop 1 ++ [⟨b, true⟩] }) s

/-- A notice is handed to the Delivery Queue of a link: not queued when the link is DOWN (R136), over an
older notice of its key (R138), or at the tail (R139, R142). -/
def deliver (l : LinkId) (b : NoticeBody) (s : State) : State :=
  if (s.link l).up then
    if hasKey b (s.link l).queue then
      onLink l (fun u => { u with queue := replaceKeyed b u.queue }) s
    else placeItem l b s
  else s

/-- What the Delivery Queue did with a touch record (R139). -/
inductive TouchOutcome where
  | placed | coalesced | dropped
  deriving DecidableEq, Repr

/-- A MOVE replaces the contact's most recent queued record when that is a MOVE, over a reversed queue. The
older cue tag wins, and GAP is carried if the older carried it or it is pending (R140). -/
def coalesceNewest (r : TouchRecord) (gap : Bool) : List Item → Option (List Item)
  | [] => none
  | i :: rest =>
    match Item.touch? i with
    | some o =>
      if o.port = r.port ∧ o.contact = r.contact then
        if o.phase = .move then
          some (⟨.touch { r with cue := o.cue.orElse fun _ => r.cue, gap := o.gap || gap }, i.lost⟩ :: rest)
        else none
      else (coalesceNewest r gap rest).map (i :: ·)
    | none => (coalesceNewest r gap rest).map (i :: ·)

/-- Coalescing in a queue (R140). -/
def coalesce (r : TouchRecord) (gap : Bool) (q : List Item) : Option (List Item) :=
  if r.phase = .move then (coalesceNewest r gap q.reverse).map List.reverse else none

/-- A touch record is handed to the Delivery Queue of a link that is UP (R140, R141). -/
def deliverTouch (l : LinkId) (r : TouchRecord) (s : State) : State × TouchOutcome :=
  let u := s.link l
  match coalesce r u.gap u.queue with
  | some q => (onLink l (fun u => { u with queue := q, gap := false }) s, .coalesced)
  | none =>
    if touchCount u.queue < Config.queueTouches ∧ u.queue.length < Config.queueItems then
      (onLink l (fun u => { u with queue := u.queue ++ [⟨.touch { r with gap := u.gap }, false⟩],
                                   gap := false }) s, .placed)
    else if r.phase = .up then
      match dropOldestTouch u.queue with
      | some (o, q) =>
        (discarded l o
          (onLink l (fun u => { u with queue := q ++ [⟨.touch { r with gap := true }, false⟩],
                                       gap := false }) s), .placed)
      | none => (onLink l (fun u => { u with gap := true }) s, .dropped)
    else (onLink l (fun u => { u with gap := true }) s, .dropped)

/-! ### Replies (R137) -/

/-- The owner places its reply in the link's slot. -/
def reply (l : LinkId) (kind : Byte) (code : ResultCode) (fields : ReplyFields) (s : State) : State :=
  onLink l (fun u => { u with reply := some ⟨kind, code, fields⟩ }) s

/-! ### Waits and the response timer (R155) -/

/-- The length of a wait in ticks. -/
def waitTicks (c : PortConfig) (checkSeconds : Nat) : Wait → Nat
  | .powerSet => seconds c.wakeS
  | .testStart => seconds checkSeconds + millis c.responseMs
  | _ => millis c.responseMs

/-- The largest length among some waits. -/
def longestWait (c : PortConfig) (checkSeconds : Nat) (ws : List Wait) : Nat :=
  ws.foldl (fun acc w => max acc (waitTicks c checkSeconds w)) 0

/-- A wait begins: it sets an absent timer, and moves a running one only to a later deadline. -/
def waitOn (now : Tick) (c : PortConfig) (w : Wait) (x : PortCtl) : PortCtl :=
  let n := waitTicks c (x.check.duration.getD 0) w
  let keep := match x.response with
    | some d => if left now d < n then some (after now n) else some d
    | none => some (after now n)
  { x with waits := if x.waits.contains w then x.waits else x.waits ++ [w], response := keep }

/-- Some waits end: with the last one the timer becomes absent. -/
def waitsOff (ended : List Wait) (x : PortCtl) : PortCtl :=
  let ws := x.waits.filter fun w => !ended.contains w
  { x with waits := ws, response := if ws.isEmpty then none else x.response }

/-- A wait ends. -/
def waitOff (w : Wait) (x : PortCtl) : PortCtl := waitsOff [w] x

/-- Every wait is dropped. -/
def waitsDropped (x : PortCtl) : PortCtl := { x with waits := [], response := none }

/-- A wait begins on a port, unless the port is UNRESPONSIVE or ABSENT (R155). -/
def beginWait (p : PortId) (w : Wait) (s : State) : State :=
  if s.cond p = .unresponsive ∨ s.cond p = .absent then s
  else onCtl p (waitOn s.tick (s.configs.get p) w) s

/-- A wait ends on a port. -/
def endWait (p : PortId) (w : Wait) (s : State) : State := onCtl p (waitOff w) s

/-- The wait that a command frame begins (R155). -/
def waitFor : DeviceCommand → Option Wait
  | .identAsk => some .identAsk
  | .powerSet _ => some .powerSet
  | .printStart _ _ _ _ => some .printStart
  | .printAbort => some .printAbort
  | .printHold => some .printHold
  | .printResume => none
  | .scanStart _ _ => some .scanStart
  | .scanAbort => some .scanAbort
  | .testStart _ => some .testStart
  | .echo _ => some .echo
  | .portClear => some .portClear

/-- A command frame is handed to the port's device link transmitter (R144), and its wait begins. -/
def sendCommand (p : PortId) (c : DeviceCommand) (s : State) : State :=
  let s := onWire p (fun w => { w with commands := w.commands ++ [c] }) s
  match waitFor c with
  | some w => beginWait p w s
  | none => s

/-- The Port Controller's record at an adapter frame that answers some waits: they end, and the silence timer,
and the response timer while a wait still holds, are set afresh from the waits that hold then (R152, R155,
R157). -/
def heardCtl (now : Tick) (c : PortConfig) (answered : List Wait) (x : PortCtl) : PortCtl :=
  let x := waitsOff answered x
  { x with
    silence := some (after now silenceTicks)
    response := x.response.map fun _ => after now (longestWait c (x.check.duration.getD 0) x.waits) }

/-- Each adapter frame taken is a sign of life, and ends the waits that it answers (R152, R155; log 9). -/
def signOfLife (p : PortId) (answered : List Wait) (s : State) : State :=
  onCtl p (heardCtl s.tick (s.configs.get p) answered) s

end Sys2Proof.Machine
end

