-- ==== Sys2Proof/Machine/Shared.lean ====
section
/-! DEFINITION. Operations that several blocks share: the holder's idle deadline, the state notices of the
blocks, and the streams with the flags that a job's state gives them. -/

namespace Sys2Proof.Machine

/-! ### The holder's idle deadline (R11 to R13) -/

/-- The deadline that arming gives: absent when the port's idle expiry is 0 (R11). -/
def State.armedDeadline (s : State) (p : PortId) : Option Tick :=
  let n := (s.configs.get p).idleS
  if n = 0 then none else some (after s.tick (seconds n))

/-- The holder's idle deadline as it stands from now on: re-armed, or absent while frozen (R11, R13). -/
def rearm (p : PortId) (s : State) : State :=
  onClaims p (fun l => l.map fun c =>
    if c.role = .holder then
      { c with deadline := if s.frozen p c then none else s.armedDeadline p }
    else c) s

/-- Activity on a port by a kiosk: it re-arms the deadline when the kiosk is the holder (R12). -/
def activity (p : PortId) (k : KioskId) (s : State) : State :=
  if s.holder p = some k then rearm p s else s

/-! ### State notices -/

/-- CLAIM_STATE to a kiosk, keyed by the port (R10, R17). -/
def claimNews (p : PortId) (k : KioskId) (n : ClaimNews) (s : State) : State :=
  deliver (.kiosk k) (.claimState p n) s

/-- The shield seconds a TAKE_STATE carries: absent when the deadline is absent or in the past (R26). -/
def State.shieldLeft (s : State) (p : PortId) : Option Nat :=
  let d := (s.takes.get p).shield
  if due s.tick d then none else secondsLeft s.tick d

/-- TAKE_STATE to the staff link (R26). -/
def takeNews (p : PortId) (s : State) : State :=
  deliver .staff (.takeState p (s.takes.get p).state (s.shieldLeft p)) s

/-- HALL_STATE to the staff link (R35, R36). -/
def hallNews (s : State) : State := deliver .staff (.hallState s.hall s.counts) s

/-- KIOSK_STATE to the staff link (R182). -/
def kioskNews (k : KioskId) (cause : KioskCause) (s : State) : State :=
  deliver .staff (.kioskState k (s.kiosks.get k).up (s.profiles.get k) cause) s

/-- HUB_STATE to the staff link, with settings format number 1 (R188). -/
def hubNews (s : State) : State := deliver .staff (.hubState s.loader.outcome s.loader.save 1) s

/-- CHECK_RESULT to the staff link, with the whole record (R161). -/
def checkNews (p : PortId) (s : State) : State := deliver .staff (.checkResult p (s.ctls.get p).check) s

/-- The fault kind a PORT_STATE or PORT_QUERY shows: in STALLED, or outstanding in CHECKING (R148). -/
def PortCtl.shownFault (x : PortCtl) : Option FaultKind :=
  match x.cond with
  | .stalled => x.fault
  | .checking => x.fault
  | _ => none

/-- PORT_STATE to the staff link (R148). -/
def portNews (p : PortId) (before : Condition) (cause : PortCause) (reported : Option Byte)
    (s : State) : State :=
  let x := s.ctls.get p
  deliver .staff (.portState
    { port := p, cls := s.cls p, cond := x.cond, before := before, cause := cause,
      fault := PortCtl.shownFault x, identity := x.identity, reportedClass := reported }) s

/-- The fault a JOB_STATE carries: the kind outstanding in STALLED, or in HELD (R58). For a job that CLEARED
aborted and that stays STALLED, no fault is outstanding (R60), and the field is absent (log 42). -/
def Job.shownFault (j : Job) : Option FaultKind :=
  match j.state with
  | .stalled => j.fault
  | .held => j.fault
  | _ => none

/-- The by-staff flag of a JOB_STATE (R58). -/
def byStaff (j : Job) : JobReport → Bool
  | .ended .cancelled => j.cancelRequested == .staff
  | .ended .doneDespiteCancel => j.cancelRequested == .staff
  | _ => false

/-- JOB_STATE to the job's kiosk (R58). -/
def jobNews (p : PortId) (j : Job) (report : JobReport) (s : State) : State :=
  deliver (.kiosk j.kiosk) (.jobState
    { id := j.id, tag := j.tag, port := p, report := report, printed := j.printed,
      fault := match report with
        | .live _ => Job.shownFault j
        | .ended _ => none
      byStaff := byStaff j report }) s

/-- DOC_STATE to a kiosk, with the port's document state as it stands (R90, R91). -/
def docNews (p : PortId) (k : KioskId) (s : State) : State :=
  deliver (.kiosk k) (.docState p (s.scanners.get p).document) s

/-! ### Streams (R126, R127, R133 to R135) -/

/-- The stall deadline is running (R133, R134). -/
def stallRuns (x : Stream) : Bool :=
  match x.direction with
  | .pull => 0 < x.senderCredit && !x.sourceEnded && !x.stallFrozen
  | .push => x.sinkCredit == 0 && !x.buffers.isEmpty

/-- The stall deadline after an event: absent when it does not run, set when it starts to run or when the
event sets it afresh, else kept (R133, R134). -/
def withStall (deadline : Tick) (afresh : Bool) (x : Stream) : Stream :=
  { x with stall :=
      if stallRuns x then (if afresh || x.stall.isNone then some deadline else x.stall) else none }

/-- The port's stream after an event of the stream. -/
def onOpenStream (p : PortId) (afresh : Bool) (f : Stream → Stream) (s : State) : State :=
  let deadline := after s.tick (seconds (s.configs.get p).stallS)
  onStream p (fun o => o.map fun x => withStall deadline afresh (f x)) s

/-- A job state in which the sink is fed nothing (R126). -/
def holdsForward (st : JobState) : Bool := st == .held

/-- A job state in which the kiosk is not timed (R126). -/
def freezesStall (st : JobState) : Bool := st == .stalled || st == .held || st == .ending

/-- The owner opens a stream (R127). -/
def openStream (p : PortId) (d : Direction) (partner : LinkId) (sink : Nat) (hold freeze : Bool)
    (s : State) : State :=
  onStream p (fun _ => some
    { direction := d, partner := partner, expected := 0, senderCredit := 0, owed := Config.buffers,
      sinkCredit := sink, buffers := [], sourceEnded := false, forwardHeld := hold,
      stallFrozen := freeze, stall := none }) s

/-- A stream is closed (R135). -/
def closeStream (p : PortId) (s : State) : State := onStream p (fun _ => none) s

/-! ### The job in flight and what follows from its state -/

/-- The job progress wait runs while the job is PRINTING or ENDING (R155). -/
def progresses (st : JobState) : Bool := st == .printing || st == .ending

/-- The job-progress wait as the state of the job in flight has it. R155 begins it when the job becomes PRINTING
or ENDING: that a wait which holds runs on when a PRINTING job becomes ENDING, and its deadline is left alone,
is the model's choice (log 48). -/
def syncJobWait (p : PortId) (on : Bool) (s : State) : State :=
  if on then (if (s.ctls.get p).waits.contains .jobProgress then s else beginWait p .jobProgress s)
  else endWait p .jobProgress s

/-- The record of the job in flight is replaced; the stream's forward held and stall frozen flags
(R126, R130, R133) and the job-progress wait (R155) follow its state. -/
def setInflight (p : PortId) (j : Job) (s : State) : State :=
  let s := onPrinter p (fun x => { x with inflight := some j }) s
  let s := onOpenStream p false (fun x =>
    match x.direction with
    | .pull => { x with forwardHeld := holdsForward j.state, stallFrozen := freezesStall j.state }
    | .push => x) s
  syncJobWait p (progresses j.state) s

end Sys2Proof.Machine
end

