-- ==== Sys2Proof/Machine/Contacts.lean ====
section
/-! DEFINITION. The Touch Router's shared operations: the coordinate transform (R96 to R98), the handing of
a record to its destination with the cue tag (R103, R110), and the cutting of contacts (R104 to R107). -/

namespace Sys2Proof.Machine

/-! ### The coordinate transform -/

/-- A transformed position. -/
structure Position where
  x : Nat
  y : Nat
  zone : Nat
  edge : Bool
  deriving DecidableEq, Repr

/-- Scaling into the output, rounded to the nearest whole position with halves up (R97). -/
def scale (lo hi size v : Nat) : Nat :=
  let d := hi - lo
  let a := (v - lo) * (size - 1)
  (2 * a + d) / (2 * d)

/-- Mirroring of an output position (R98). -/
def mirror (invert : Bool) (size v : Nat) : Nat := if invert then size - 1 - v else v

/-- The zone of an output position (R98). -/
def zoneOf (c : Calibration) (u v : Nat) : Nat :=
  v * c.rows / c.height * c.cols + u * c.cols / c.width

/-- The five stages: swap, clamp, scale, invert, zone (R96, R97, R98). -/
def transform (c : Calibration) (rawX rawY : Nat) : Position :=
  let x := if c.swap then rawY else rawX
  let y := if c.swap then rawX else rawY
  let xc := clamp c.xMin c.xMax x
  let yc := clamp c.yMin c.yMax y
  let u := mirror c.invertX c.width (scale c.xMin c.xMax c.width xc)
  let v := mirror c.invertY c.height (scale c.yMin c.yMax c.height yc)
  { x := u, y := v, zone := zoneOf c u v, edge := xc != x || yc != y }

/-! ### Handing a record to its destination -/

/-- The cue delay a record carries, if it is tagged: 65,535 for SATURATED, else the ticks from the pending
tick to its arrival; a record that arrived before the edge is not tagged (R110, log 30). -/
def cueTag (cue : PendingCue) (arrival : Tick) : Option Nat :=
  match cue with
  | .absent => none
  | .saturated => some 65535
  | .tick t => if reached arrival t then some (min 65535 (arrival - t).toNat) else none

/-- A contact is looked up by its id (R100). -/
def contactOf (s : State) (p : PortId) (id : Fin 16) : Option Contact :=
  (s.panels.get p).contacts.find? fun c => c.id == id

/-- What follows at the panel and at the Claim Arbiter when a report's record was placed or coalesced: a
tagging cue is spent (R110), and a record in the queue of the panel's holder is its activity (R12). -/
def afterPlacing (p : PortId) (l : LinkId) (tag : Option Nat) (s : State) : State :=
  let s := if tag.isSome then onPanel p (fun x => { x with cue := .absent }) s else s
  match l with
  | .kiosk k => activity p k s
  | .staff => s

/-- A record from a report is handed to its destination (R103). -/
def handReport (p : PortId) (d : Dest) (r : TouchRecord) (s : State) : State :=
  match d with
  | .drop => s
  | .link l =>
    if (s.link l).up then
      let tag := cueTag (s.panels.get p).cue r.stamp
      let o := deliverTouch l { r with cue := tag } s
      match o.2 with
      | .dropped => if r.phase = .down then orphan p r.contact o.1 else o.1
      | .placed => afterPlacing p l tag o.1
      | .coalesced => afterPlacing p l tag o.1
    else if r.phase = .down then orphan p r.contact s
    else s

/-- The synthetic UP of a contact (R104): its last record, pressure 0, CANCELLED, the current tick. -/
def syntheticUp (p : PortId) (now : Tick) (c : Contact) : TouchRecord :=
  { port := p, contact := c.id, phase := .up, x := c.x, y := c.y, zone := c.zone, pressure := 0,
    stamp := now, edge := c.edge, cancelled := true, cue := none, gap := false }

/-- A synthetic UP is handed to the contact's destination: no cue tag, no activity (R104). -/
def handSynthetic (p : PortId) (c : Contact) (s : State) : State :=
  match c.dest with
  | .drop => s
  | .link l =>
    if (s.link l).up then (deliverTouch l (syntheticUp p s.tick c) s).1 else s

/-! ### Cutting contacts -/

/-- A LIVE entry that a test picks is cut: its synthetic UP, then ORPHAN. -/
def cutContact (p : PortId) (pick : Contact → Bool) (id : Fin 16) (s : State) : State :=
  match contactOf s p id with
  | some c => if c.live && pick c then orphan p id (handSynthetic p c s) else s
  | none => s

/-- Every LIVE entry of a panel that a test picks is cut, in the order of the table. -/
def cutContacts (p : PortId) (pick : Contact → Bool) (s : State) : State :=
  ((s.panels.get p).contacts.map (·.id)).foldl (fun s id => cutContact p pick id s) s

/-- The holder of a panel has changed: entries via HOLDER or IDLE are cut (R105). -/
def holderChanged (p : PortId) (s : State) : State := cutContacts p (fun c => c.via != .neither) s

/-- A panel's contact table is cleared: each LIVE entry sends its synthetic UP, then every entry is removed
(R106). -/
def clearContacts (p : PortId) (s : State) : State :=
  onPanel p (fun x => { x with contacts := [] }) (cutContacts p (fun _ => true) s)

/-- Every entry whose destination is a link that went DOWN becomes ORPHAN, with no synthetic UP (R107). -/
def orphanLink (l : LinkId) (s : State) : State :=
  let cut := fun c : Contact => if c.dest = .link l then { c with live := false } else c
  forPorts (fun p => onPanel p fun x => { x with contacts := x.contacts.map cut }) s

/-- Every LIVE entry whose destination is a kiosk no longer admitted is cut (R107). -/
def cutKiosk (k : KioskId) (s : State) : State :=
  forPorts (fun p => cutContacts p fun c => c.dest == .link (.kiosk k)) s

end Sys2Proof.Machine
end

