-- ==== Sys2Proof/Machine/Arbiter.lean ====
section
/-! DEFINITION. The operations in which the Claim Arbiter, the Print Queue Manager and the Scan Controller
call on one another: entering STAFF_HOLD, promotion, the end of a claim, a scan leaving flight or aborted, a
job selected, aborted or ended, and the evaluation of a take. -/

namespace Sys2Proof.Machine

/-! ### Entering STAFF_HOLD -/

/-- The state a job was in before it stalled or was held (R44). -/
def resumeOf (j : Job) : Option ResumeState :=
  match j.state with
  | .starting => some .starting
  | .printing => some .printing
  | .ending => some .ending
  | .stalled => j.resume
  | .held => j.resume
  | .queued => none

/-- The state a resume state names; a missing one counts as STARTING (log 24). -/
def resumed : Option ResumeState → JobState
  | some .starting => .starting
  | some .printing => .printing
  | some .ending => .ending
  | none => .starting

/-- The Print Queue Manager takes the report that its port entered STAFF_HOLD (R61). -/
def holdJob (p : PortId) (s : State) : State :=
  match (s.printers.get p).inflight with
  | none => s
  | some j =>
    if j.abortSent then s
    else
      let j' := { j with state := .held, resume := resumeOf j, holdSent := true }
      let s := if j.holdSent then s else sendCommand p .printHold s
      jobNews p j' (.live .held) (setInflight p j' s)

/-- The takeover state changes, and TAKE_STATE goes to the staff link (R26). -/
def setTake (p : PortId) (t : TakeState) (s : State) : State :=
  takeNews p (onTake p (fun x => { x with state := t }) s)

/-- The holder's suspended flag (R30, R32); the idle deadline freezes or thaws with it (R13). -/
def setSuspended (p : PortId) (v : Bool) (s : State) : State :=
  rearm p (onClaims p (fun l => l.map fun c =>
    if c.role = .holder then { c with suspended := v } else c) s)

/-- A port enters STAFF_HOLD (R30). -/
def enterStaffHold (p : PortId) (s : State) : State :=
  let s := onTake p (fun x => { x with state := .staffHold }) s
  let s := setSuspended p true s
  let s := if s.cls p = .panel then holderChanged p s else s
  let s := match s.holder p with
    | some k => claimNews p k .suspended s
    | none => s
  let s := if s.cls p = .printer then holdJob p s else s
  takeNews p s

/-- A pending take that waits for one of some values completes into STAFF_HOLD (R29). -/
def completeTake (p : PortId) (ws : List Waiting) (s : State) : State :=
  match (s.takes.get p).state with
  | .pending w _ => if ws.contains w then enterStaffHold p s else s
  | _ => s

/-! ### Grants and promotion -/

/-- Steps 1 and 2 of a grant: the record becomes holder and its idle deadline is armed (R7). -/
def grantRecord (p : PortId) (k : KioskId) (s : State) : State :=
  rearm p (onClaims p (fun l => l.map fun c =>
    if c.kiosk = k then { c with role := .holder, grant := some s.tick, suspended := false } else c) s)

/-- A grant (R7), with the CLAIM_STATE HOLDING of a promotion between its steps 3 and 4 (R18). -/
def grant (p : PortId) (k : KioskId) (promotion : Bool) (s : State) : State :=
  let s := grantRecord p k s
  let s := if s.cls p = .panel then holderChanged p s else s
  let s := if promotion then claimNews p k .holding s else s
  if s.cls p = .scanner then docNews p k s else s

/-- Promotion of the head waiter, when its four conditions hold (R18). -/
def promote (p : PortId) (s : State) : State :=
  let l := s.claims.get p
  match (holderOf l).isNone, (waitersOf l).head? with
  | true, some c =>
    if (s.takes.get p).state = .free ∧ s.hall = .openHall ∧ s.cond p ≠ .checking then
      grant p c.kiosk true s
    else s
  | _, _ => s

/-! ### Scans leaving flight -/

/-- A kiosk's record leaves a port's list and returns to the pool (R16, step 1). -/
def removeClaim (p : PortId) (k : KioskId) (s : State) : State :=
  onClaims p (fun l => l.filter fun c => c.kiosk != k) s

/-- The Claim Arbiter takes the report that the port's scan has left flight (R80 step 4, R38): the requester
that holds the port thaws, or ends CLOSING when it is marked closing; then a take waiting for SCAN completes. -/
def scanLeft (p : PortId) (requester : LinkId) (s : State) : State :=
  let s :=
    match holderOf (s.claims.get p) with
    | some c =>
      if requester = .kiosk c.kiosk then
        if c.closing then
          promote p (claimNews p c.kiosk (.ended .closing) (removeClaim p c.kiosk s))
        else rearm p s
      else s
    | none => s
  completeTake p [.scan] s

/-- SCAN_RESULT to the requester (R89); one for a link that is DOWN is not queued. -/
def giveResult (p : PortId) (x : Scan) (s : State) : State :=
  deliver x.requester (.scanResult
    { port := p, reason := x.reason, mode := x.mode
      code := match x.mode, x.reason with
        | .code, none => x.code
        | _, _ => none
      forwarded := match x.mode with
        | .image => some x.forwarded
        | .code => none
      reported := match x.mode, x.reason with
        | .image, none => x.reported
        | _, _ => none
      started := x.started }) s

/-- The scan record is replaced; the scan-progress wait runs while the scan is SCANNING (R155). -/
def setScan (p : PortId) (o : Option Scan) (s : State) : State :=
  let s := onScanner p (fun x => { x with scan := o }) s
  if o.any fun x => x.state == .scanning then
    if (s.ctls.get p).waits.contains .scanProgress then s else beginWait p .scanProgress s
  else endWait p .scanProgress s

/-- A scan whose result has been given leaves flight (R80, steps 2 to 4). -/
def leaveFlight (p : PortId) (s : State) : State :=
  match (s.scanners.get p).scan with
  | none => s
  | some x => scanLeft p x.requester (setScan p none (closeStream p s))

/-- A scan ends by itself: its result is given as it stands, and it leaves flight (R80). -/
def finishScan (p : PortId) (x : Scan) (s : State) : State :=
  leaveFlight p (giveResult p x (setScan p (some { x with resultGiven := true }) s))

/-- A scan in flight is aborted for a reason (R84). -/
def abortScan (p : PortId) (r : ScanReason) (s : State) : State :=
  match (s.scanners.get p).scan with
  | none => s
  | some x =>
    if x.abortSent then s
    else
      let x' := { x with abortSent := true, reason := some r, code := none, resultGiven := true }
      let s := giveResult p x' (setScan p (some x') (closeStream p s))
      match x.state with
      | .ending => leaveFlight p s
      | _ => sendCommand p .scanAbort s

/-- A scan in flight ends at once, its result given with a reason if it has not been given (R85, R88). -/
def endScanNow (p : PortId) (r : ScanReason) (s : State) : State :=
  match (s.scanners.get p).scan with
  | none => s
  | some x =>
    if x.resultGiven then leaveFlight p s
    else finishScan p { x with reason := some r, code := none } s

/-- The grant of a kiosk on a scanner has ended: a scan of its own is aborted (R87). -/
def grantEnded (p : PortId) (k : KioskId) (s : State) : State :=
  match (s.scanners.get p).scan with
  | some x => if x.requester = .kiosk k then abortScan p .grantEnded s else s
  | none => s

/-! ### The end of a claim -/

/-- Steps 1 to 3 of the end of a claim record; no reason is a departure, without a notice (R16). -/
def endRecord (p : PortId) (k : KioskId) (r : Option EndReason) (s : State) : State :=
  match claimOf (s.claims.get p) k with
  | none => s
  | some c =>
    let s := removeClaim p k s
    let s :=
      if c.role = .holder then
        match s.cls p with
        | .panel => holderChanged p s
        | .scanner => grantEnded p k s
        | _ => s
      else s
    match r with
    | some r => claimNews p k (.ended r) s
    | none => s

/-- The end of a claim record, followed by promotion when it was the holder (R16). -/
def endClaim (p : PortId) (k : KioskId) (r : Option EndReason) (s : State) : State :=
  match claimOf (s.claims.get p) k with
  | none => s
  | some c =>
    let s := endRecord p k r s
    if c.role = .holder then promote p s else s

/-- Every waiter of a list ends, in list order (log 25). -/
def endWaiters (p : PortId) (r : EndReason) (s : State) : State :=
  (waitersOf (s.claims.get p)).foldl (fun s c => endRecord p c.kiosk (some r) s) s

/-- Every record of a port ends, the waiters first and the holder last (R23). -/
def endAllClaims (p : PortId) (r : EndReason) (s : State) : State :=
  let s := endWaiters p r s
  match s.holder p with
  | some k => endClaim p k (some r) s
  | none => s

/-! ### Jobs -/

/-- Selection of the head of the serving order, when its conditions hold (R49, R50). -/
def select (p : PortId) (s : State) : State :=
  match s.serving p with
  | [] => s
  | j :: _ =>
    let x := s.printers.get p
    if x.inflight.isNone ∧ s.cond p = .serving ∧ s.atReady p ∧ (s.takes.get p).state = .free
        ∧ x.gap = none then
      let j' := { j with state := .starting }
      let s := onPrinter p (fun x => { x with queue := x.queue.filter fun q => q.id != j.id }) s
      let s := sendCommand p (.printStart j.id j.copies j.pages j.options) (setInflight p j' s)
      jobNews p j' (.live .starting) s
    else s

/-- The gap deadline that the end of a job in flight sets (R51). -/
def State.gapDeadline (s : State) (p : PortId) : Option Tick :=
  let n := (s.configs.get p).gapMs
  if n = 0 then none else some (after s.tick (millis n))

/-- The job in flight reaches an end state (R57). -/
def endInflight (p : PortId) (j : Job) (e : JobEnd) (s : State) : State :=
  let s := closeStream p s
  let s := endWait p .jobProgress (onPrinter p (fun x => { x with inflight := none }) s)
  let s := jobNews p j (.ended e) s
  let s := onPrinter p (fun x => { x with gap := s.gapDeadline p }) s
  let s := if (s.printers.get p).gap = none then select p s else s
  completeTake p [.held, .job] s

/-- A queued job reaches an end state (R57). -/
def endQueued (p : PortId) (j : Job) (e : JobEnd) (s : State) : State :=
  jobNews p j (.ended e)
    (onPrinter p (fun x => { x with queue := x.queue.filter fun q => q.id != j.id }) s)

/-- The hub aborts the job in flight for a cause (R55). -/
def abortJob (p : PortId) (cause : AbortCause) (s : State) : State :=
  match (s.printers.get p).inflight with
  | none => s
  | some j =>
    if j.abortSent then s
    else
      closeStream p
        (sendCommand p .printAbort
          (setInflight p { j with abortCause := some cause, abortSent := true } s))

/-- The end state of a job that stops before it is done: CANCELLED for CANCEL and DROP, FAILED with the
recorded reason, or FAILED with the given one when no abort was sent (R56, R67 to R69). -/
def stoppedEnd (cause : Option AbortCause) (otherwise : FailReason) : JobEnd :=
  match cause with
  | some .cancel => .cancelled
  | some .drop => .cancelled
  | some (.failed r) => .failed r
  | none => .failed otherwise

/-- The job in flight ends at once, without waiting for the adapter (R67 to R69). -/
def endInflightNow (p : PortId) (otherwise : FailReason) (s : State) : State :=
  match (s.printers.get p).inflight with
  | none => s
  | some j => endInflight p j (stoppedEnd j.abortCause otherwise) s

/-! ### Evaluating a take -/

/-- A pending take, and TAKE_STATE (R26, R28). -/
def pendTake (p : PortId) (w : Waiting) (holdAsked : Bool) (s : State) : State :=
  setTake p (.pending w holdAsked) s

/-- The part of R28 after the shield: the port's class decides; an UNUSED port goes as a panel (log 24). -/
def takeByClass (p : PortId) (s : State) : State :=
  match s.cls p with
  | .scanner => if s.scanInFlight p then pendTake p .scan false s else enterStaffHold p s
  | .printer =>
    match (s.printers.get p).inflight with
    | none => enterStaffHold p s
    | some j =>
      if j.abortSent then pendTake p .job false s
      else if j.state = .stalled ∨ j.state = .held then enterStaffHold p s
      else
        pendTake p .held true
          (sendCommand p .printHold (setInflight p { j with holdSent := true } s))
  | .panel => enterStaffHold p s
  | .unused => enterStaffHold p s

/-- A take of a port is evaluated (R28). -/
def evaluateTake (p : PortId) (s : State) : State :=
  match (s.takes.get p).shield with
  | some d =>
    if reached s.tick d then takeByClass p (onTake p (fun x => { x with shield := none }) s)
    else pendTake p .shield false s
  | none => takeByClass p s

/-- A TAKE naming a port, without its reply (R27): it is evaluated in NONE, and else changes nothing. -/
def takePort (p : PortId) (s : State) : State :=
  match (s.takes.get p).state with
  | .free => evaluateTake p s
  | _ => s

end Sys2Proof.Machine
end

