-- ==== Sys2Proof/Machine/Ports.lean ====
section
/-! DEFINITION. The Port Controllers' shared operations: a change of condition with what every block does on
it (R148, R149), a change of class (R147), and the taking of an adapter frame (R150, R152, R156). -/

namespace Sys2Proof.Machine

/-! ### The reached power level -/

/-- The reached level changes, and the blocks whose work depends on it are told (R169): selection at READY,
the contact table cleared when the level falls from READY (R106). -/
def setReached (p : PortId) (v : Option Level) (s : State) : State :=
  let old := (s.power.get p).reached
  let s := onPower p (fun x => { x with reached := v }) s
  let s := if v = some .ready ∧ old ≠ some .ready then select p s else s
  if old = some .ready ∧ v ≠ some .ready then clearContacts p s else s

/-! ### What the blocks do at a change of condition -/

/-- The port check ends with a status; CHECK_RESULT carries the whole record (R161). -/
def endCheck (p : PortId) (st : CheckStatus) (s : State) : State :=
  checkNews p (onCtl p (fun x =>
    { x with check := { x.check with status := st, step := none, ended := some s.tick } }) s)

/-- Claim Arbiter (R23, R18). -/
def arbiterTakes (p : PortId) (before now : Condition) (s : State) : State :=
  let s := if now = .absent then endAllClaims p .deviceLost s else s
  if before = .checking ∧ now ≠ .checking then promote p s else s

/-- Every queued job of a port ends, in the current serving order (R68). -/
def endQueue (p : PortId) (e : JobEnd) (s : State) : State :=
  (s.serving p).foldl (fun s j => endQueued p j e s) s

/-- Print Queue Manager (R49, R67, R68, R69). -/
def printerTakes (p : PortId) (now : Condition) (s : State) : State :=
  match now with
  | .unresponsive => endInflightNow p .deviceSilent (abortJob p (.failed .deviceSilent) s)
  | .absent => endQueue p (.failed .deviceLost) (endInflightNow p .deviceLost s)
  | .resetting => endInflightNow p .portReset s
  | .serving => select p s
  | _ => s

/-- The document state becomes absent; a holder is told when it was present (R90), also on a port that is no
scanner any more (log 44). -/
def documentGone (p : PortId) (s : State) : State :=
  if (s.scanners.get p).document then
    let s := onScanner p (fun x => { x with document := false }) s
    match s.holder p with
    | some k => docNews p k s
    | none => s
  else s

/-- The Scan Controller at UNRESPONSIVE: SCAN_ABORT unless the abort was sent, then the end at once (R88),
also for a scan that is ENDING (log 37). -/
def scanSilent (p : PortId) (s : State) : State :=
  match (s.scanners.get p).scan with
  | none => s
  | some x => endScanNow p .deviceSilent (if x.abortSent then s else sendCommand p .scanAbort s)

/-- Scan Controller (R88, R90); a class change by LOAD governs in place of the condition it leads to. A class
change by PORT_SET that does not lead to ABSENT keeps the document state (log 44). -/
def scannerTakes (p : PortId) (now : Condition) (cause : PortCause) (s : State) : State :=
  if cause = .load then documentGone p (endScanNow p .portReset s)
  else
    match now with
    | .unresponsive => scanSilent p s
    | .absent => documentGone p (endScanNow p .deviceLost s)
    | .resetting => documentGone p (endScanNow p .portReset s)
    | _ => s

/-- Touch Router (R106). -/
def touchTakes (p : PortId) (before now : Condition) (s : State) : State :=
  if before = .serving ∧ now ≠ .serving then clearContacts p s else s

/-- A transition in flight ends without POWER_DONE, and the reached level becomes UNKNOWN (R170). -/
def transitionLost (p : PortId) (s : State) : State :=
  if (s.power.get p).moving then
    setReached p none (onPower p (fun x => { x with moving := false }) s)
  else s

/-- Power Governor (R170). -/
def governorTakes (p : PortId) (now : Condition) (s : State) : State :=
  match now with
  | .unresponsive => transitionLost p s
  | .resetting => transitionLost p s
  | .absent => setReached p none (onPower p (fun x => { x with moving := false }) s)
  | _ => s

/-- The blocks take a change of condition, in the model's order (R149, log 8). -/
def blocksTake (p : PortId) (before now : Condition) (cause : PortCause) (s : State) : State :=
  governorTakes p now
    (touchTakes p before now
      (scannerTakes p now cause
        (printerTakes p now
          (arbiterTakes p before now s))))

/-- The Port Controller's own record at a change of condition: becoming ABSENT drops the waits, the identity
and the silence timer (which runs in ABSENT only with the mismatch flag), becoming UNRESPONSIVE drops the
waits, leaving ABSENT starts the silence timer, leaving IDENTIFYING ends its wait (R155 to R157). -/
def movedCtl (now : Tick) (c : Condition) (cause : PortCause) (x : PortCtl) : PortCtl :=
  let silence := some (after now silenceTicks)
  let y := if c = .identifying then x else waitOff .identAsk x
  let y := { y with cond := c, cause := cause, silence := if x.cond = .absent then silence else x.silence }
  match c with
  | .absent => { waitsDropped y with identity := none, silence := if x.mismatch then silence else none }
  | .unresponsive => waitsDropped y
  | _ => y

/-- Command frames not yet taken for sending are removed (R144). -/
def removeCommands (p : PortId) (s : State) : State := onWire p (fun w => { w with commands := [] }) s

/-- The port's condition changes (R148, R149): the change and a check that ends ERROR with it (R161), then
PORT_STATE, then the blocks (logs 8, 19, 28). -/
def changeCondition (p : PortId) (c : Condition) (cause : PortCause) (reported : Option Byte)
    (s : State) : State :=
  let before := s.cond p
  let s := onCtl p (movedCtl s.tick c cause) s
  let s := if c = .absent ∨ c = .resetting then removeCommands p s else s
  let s := if c ≠ .checking ∧ s.checkRunning p then endCheck p .error s else s
  blocksTake p before c cause (portNews p before cause reported s)

/-- The port becomes IDENTIFYING and IDENT_ASK is sent. -/
def identify (p : PortId) (cause : PortCause) (s : State) : State :=
  sendCommand p .identAsk (changeCondition p .identifying cause none s)

/-- The port becomes ABSENT for a cause. -/
def becomeAbsent (p : PortId) (cause : PortCause) (reported : Option Byte) (s : State) : State :=
  changeCondition p .absent cause reported s

/-! ### A change of class (R147) -/

/-- What a change of class does to the condition, after the new configuration is in place: commands not yet
taken are removed (R144) before IDENT_ASK is sent. The waits that hold are kept (log 18), and IDENTIFYING is
entered again from IDENTIFYING (log 19). -/
def classChanged (p : PortId) (cause : PortCause) (s : State) : State :=
  let s := removeCommands p s
  if s.cond p = .absent then
    onCtl p (fun x => { x with identity := none, mismatch := false, silence := none }) s
  else if s.cls p = .unused then
    becomeAbsent p cause none (onCtl p (fun x => { x with identity := none, mismatch := false }) s)
  else identify p cause (onCtl p (fun x => { x with identity := none }) s)

/-- The sequence trigger at a class change: WAIT_A when armed on a port that becomes PANEL, OFF on a port that
stops being one (R120). -/
def triggerAtClass (old new : PortClass) (x : Panel) : Panel :=
  if new = .panel ∧ old ≠ .panel then
    { x with seqState := if x.seq.armed then .waitA else .off }
  else if old = .panel ∧ new ≠ .panel then { x with seqState := .off }
  else x

/-- Every vote on a port is removed (R166). -/
def votesGone (p : PortId) (s : State) : State :=
  onPower p (fun x => { x with votes := Table.fill 24 none }) s

/-! ### Taking an adapter frame -/

/-- What a Port Controller does with a frame while the port is ABSENT (R150). -/
def absentFrame (p : PortId) (announce : Bool) (s : State) : State :=
  let x := s.ctls.get p
  if s.cls p = .unused then s
  else if x.mismatch then onCtl p (fun x => { x with silence := some (after s.tick silenceTicks) }) s
  else if announce then identify p .announce s
  else if x.clearSpacing = none then
    sendCommand p .portClear
      (onCtl p (fun x => { x with clearSpacing := some (after s.tick silenceTicks) }) s)
  else s

/-- An adapter frame is taken from a device link: discarded during the start-up read (R187), handled by R150
in ABSENT, moving an UNRESPONSIVE port to IDENTIFYING (R156), and then taken by its owner. It ends the waits
that it answers before its owner takes it (R155, log 9). A frame that is itself an ANNOUNCE or an IDENT is not
taken a second time. -/
def adapterFrame (p : PortId) (announce ident : Bool) (answers : List Wait) (owner : State → State)
    (s : State) : State :=
  if s.loader.starting then s
  else
    let s := onWire p (fun w => { w with rx := [] }) s
    match s.cond p with
    | .absent => absentFrame p announce s
    | .unresponsive =>
      let s := identify p .adapterBack (signOfLife p answers s)
      if announce || ident then s else owner s
    | _ => owner (signOfLife p answers s)

/-- A frame for ports of one class: on a port of another class it is ignored, and answers nothing (R152). That
this goes for a TOUCH_REPORT too, also in CHECKING, is the model's choice (R92, R160; log 47). -/
def classFrame (p : PortId) (c : PortClass) (answers : List Wait) (owner : State → State)
    (s : State) : State :=
  if s.cls p = c then adapterFrame p false false answers owner s
  else adapterFrame p false false [] (fun s => s) s

end Sys2Proof.Machine
end

