-- ==== Sys2Proof/Machine/Transmit.lean ====
section
/-! DEFINITION. The end of an event: the hall's counts and the QUIET condition (R36, R40), the power targets
and transitions (R167, R168), and the transmitters of the 37 links (R130 to R132, R143, R144). -/

namespace Sys2Proof.Machine

/-! ### The hall state -/

/-- The QUIET condition is tested in a CLOSING hall (R40). -/
def testQuiet (s : State) : State :=
  if s.hall = .closing ∧ s.quietCondition then hallNews { s with hall := .quiet } else s

/-- While the hall is CLOSING, an event in which one of the four counts fell gives a fresh HALL_STATE and a
test of the QUIET condition (R36, R40, log 6). -/
def hallFalls (before s : State) : State :=
  if before.hall = .closing ∧ s.hall = .closing ∧ someFell before.counts s.counts then
    testQuiet (hallNews s)
  else s

/-! ### Power targets and transitions -/

/-- A port's target is recomputed (R167), and a transition starts when R168 allows. -/
def retarget (p : PortId) (s : State) : State :=
  let t := s.targetOf p
  let s := onPower p (fun x => { x with target := t }) s
  let w := s.power.get p
  let c := s.cond p
  if w.reached.any (· != t) ∧ w.moving = false ∧ (c = .serving ∨ c = .stalled ∨ c = .checking) then
    sendCommand p (.powerSet t) (onPower p (fun x => { x with moving := true }) s)
  else s

/-- Every port's target and transition at the end of an event (log 7). -/
def powerPass (s : State) : State := forPorts retarget s

/-- What closes an event: the hall, then the targets. -/
def closeEvent (before s : State) : State := powerPass (hallFalls before s)

/-! ### What a chunk taken for sending means to its owner -/

/-- The chunk carrying LAST was forwarded to the adapter (R54). -/
def lastForwarded (p : PortId) (s : State) : State :=
  match (s.printers.get p).inflight with
  | none => s
  | some j =>
    if j.abortSent then s
    else
      match j.state with
      | .printing =>
        let j' := { j with state := .ending }
        jobNews p j' (.live .ending) (setInflight p j' s)
      | .stalled =>
        let j' := { j with resume := some .ending }
        jobNews p j' (.live .stalled) (setInflight p j' s)
      | .held =>
        let j' := { j with resume := some .ending }
        jobNews p j' (.live .held) (setInflight p j' s)
      | _ => s

/-- Bytes forwarded after a chunk of some length; the field's 32 bits say nothing past their range
(R74, log 10). -/
def addForwarded (n : BitVec 32) (len : Nat) : BitVec 32 :=
  if n.toNat + len < 2 ^ 32 then BitVec.ofNat 32 (n.toNat + len)
  else Config.bytesPast32Bits (n.toNat + len)

/-- The Scan Controller is told of a chunk transmitted to the requester (R82); when it was the last one
buffered of an ENDING scan, the scan ends (R83, R131). -/
def chunkTransmitted (p : PortId) (len : Nat) (emptied : Bool) (s : State) : State :=
  match (s.scanners.get p).scan with
  | none => s
  | some x =>
    if x.abortSent then s
    else
      let x' := { x with forwarded := addForwarded x.forwarded len }
      let s := setScan p (some x') s
      if emptied ∧ x.state = .ending then finishScan p x' s else s

/-! ### The transmitter of a kiosk or staff link (R143) -/

/-- A stream has a frame ready for its partner's link (R131, R132). -/
def readyForPartner (l : LinkId) (x : Stream) : Bool :=
  x.partner == l &&
    (match x.direction with
     | .pull => 0 < x.owed && !x.sourceEnded
     | .push => !x.buffers.isEmpty && 0 < x.sinkCredit)

/-- The ports in the order in which a transmitter tries them after the last one served. -/
def portsAfter (p : PortId) : List PortId := allPorts.map fun i => p + 1 + i

/-- The port whose stream is served next on a link. -/
def State.nextStream (s : State) (l : LinkId) : Option PortId :=
  (portsAfter (s.link l).lastPort).find? fun p => (s.streams.get p).any (readyForPartner l)

/-- A reply is taken for sending; it stays in the slot until its frame has been sent (R137), and carries
OVERRUN when overrun is pending (R177). -/
def sendReply (l : LinkId) (r : Reply) (s : State) : State :=
  onLink l (fun u => { u with sending := some (.reply r u.overrun), overrun := false }) s

/-- The item at the head of the queue is taken for sending. -/
def sendNotice (l : LinkId) (i : Item) (rest : List Item) (s : State) : State :=
  onLink l (fun u => { u with sending := some (.notice i), queue := rest, turn := .streams }) s

/-- The owed credit is taken for sending: it becomes sender credit (R132). -/
def creditTaken (p : PortId) (s : State) : State :=
  onOpenStream p false (fun x => { x with senderCredit := x.senderCredit + x.owed, owed := 0 }) s

/-- The head chunk is taken for sending: its buffer is freed and its credit owed (R130, R131). -/
def chunkTaken (p : PortId) (s : State) : State :=
  onOpenStream p false (fun x =>
    { x with buffers := x.buffers.drop 1, sinkCredit := x.sinkCredit - 1, owed := x.owed + 1 }) s

/-- A stream frame of a port is taken for sending on its partner's link. -/
def sendStream (l : LinkId) (p : PortId) (s : State) : State :=
  match s.streams.get p with
  | none => s
  | some x =>
    let take := fun f : LinkFrame => onLink l (fun u =>
      { u with sending := some f, turn := .notices, lastPort := p })
    match x.direction, x.buffers with
    | .pull, _ => creditTaken p (take (.credit p x.owed) s)
    | .push, c :: rest =>
      let last := rest.isEmpty && x.sourceEnded
      chunkTransmitted p c.data.length last (chunkTaken p (take (.chunk p c) s))
    | .push, [] => s

/-- An idle transmitter takes its next frame; none when it has nothing to send (R143). -/
def serveLink (l : LinkId) (s : State) : Option State :=
  let u := s.link l
  if u.up && u.sending.isNone then
    match u.reply with
    | some r => some (sendReply l r s)
    | none =>
      match u.turn, u.queue, s.nextStream l with
      | .notices, i :: rest, _ => some (sendNotice l i rest s)
      | .notices, [], some p => some (sendStream l p s)
      | .streams, _, some p => some (sendStream l p s)
      | .streams, i :: rest, none => some (sendNotice l i rest s)
      | _, [], none => none
  else none

/-! ### The transmitter of a device link (R144) -/

/-- A stream has a frame ready for its device link (R130, R132). -/
def readyForDevice (x : Stream) : Bool :=
  match x.direction with
  | .pull => !x.buffers.isEmpty && 0 < x.sinkCredit && !x.forwardHeld
  | .push => 0 < x.owed && !x.sourceEnded

/-- A stream frame of a port is taken for sending on its device link. -/
def sendToDevice (p : PortId) (x : Stream) (s : State) : State :=
  let take := fun f : DeviceFrame => onWire p (fun w => { w with sending := some f })
  match x.direction, x.buffers with
  | .push, _ => creditTaken p (take (.credit p x.owed) s)
  | .pull, c :: _ =>
    let s := chunkTaken p (take (.chunk p c) s)
    if c.last then lastForwarded p s else s
  | .pull, [] => s

/-- An idle transmitter of a device link takes its next frame; none when it has nothing to send. -/
def serveDevice (p : PortId) (s : State) : Option State :=
  let w := s.wires.get p
  if w.sending.isSome then none
  else
    match w.commands, s.streams.get p with
    | c :: rest, _ =>
      some (onWire p (fun w => { w with sending := some (.command c), commands := rest }) s)
    | [], some x => if readyForDevice x then some (sendToDevice p x s) else none
    | [], none => none

/-! ### All transmitters -/

/-- The 25 kiosk and staff links, K0 first and the staff link last. -/
def allLinks : List LinkId := allKiosks.map .kiosk ++ [.staff]

/-- The first idle transmitter that has a frame to send takes it (log 5). -/
def serveNext (s : State) : Option State :=
  match allLinks.findSome? fun l => serveLink l s with
  | some t => some t
  | none => allPorts.findSome? fun p => serveDevice p s

/-- Idle transmitters take frames until none has anything ready; none sends during the start-up read (R187).
Each of the 37 takes at most one, for it is then busy until its frame has been sent. -/
def settle : Nat → State → State
  | 0, s => s
  | n + 1, s =>
    if s.loader.starting then s
    else
      match serveNext s with
      | none => s
      | some t => settle n (closeEvent s t)

/-- What follows every command: the event is closed, and the idle transmitters take what became ready. -/
def finish (before after : State) : State := settle 37 (closeEvent before after)

/-- The outcome of a command that has taken the hub from one state to another. -/
def done (before after : State) : Host.Outcome State Fault Refusal := .next (finish before after)

end Sys2Proof.Machine
end

