-- ==== Sys2Proof/Machine/Requests.lean ====
section
/-! DEFINITION. How a valid frame on a kiosk or staff link is taken (R172, R177) and the common checks that a
request passes before its owner sees it (R178, R179). -/

namespace Sys2Proof.Machine

/-! ### Taking a valid frame -/

/-- A link's receiver is in HUNT after a valid frame. -/
def received (l : LinkId) (s : State) : State := onLink l (fun u => { u with rx := [] }) s

/-- A valid frame reloads the silence timer of an UP link (R172, R175). -/
def reload (l : LinkId) (s : State) : State :=
  onLink l (fun u => { u with silence := some (after s.tick silenceTicks) }) s

/-- A valid frame is taken from a link: discarded during the start-up read (R187); on a DOWN link taken by
`down`, on an UP link by `up` (R172). -/
def linkFrame (l : LinkId) (down up : State → State) (s : State) : State :=
  if s.loader.starting then s
  else if (s.link l).up then up (reload l (received l s))
  else down (received l s)

/-- The stop-and-wait discipline: with a request outstanding the new one is discarded and overrun pending is
set; otherwise it becomes outstanding (R177). -/
def stopAndWait (l : LinkId) (checked : State → State) (s : State) : State :=
  if (s.link l).outstanding then onLink l (fun u => { u with overrun := true }) s
  else checked (onLink l (fun u => { u with outstanding := true }) s)

/-- A request on a link: discarded when the link is DOWN, and else taken under stop-and-wait (R172). -/
def request (l : LinkId) (checked : State → State) (s : State) : State :=
  linkFrame l (fun s => s) (stopAndWait l checked) s

/-- A refusal: a reply with nothing beyond its code. -/
def refuse (l : LinkId) (kind : Byte) (code : ResultCode) (s : State) : State :=
  reply l kind code .bare s

/-- An OK reply with fields. -/
def answer (l : LinkId) (kind : Byte) (fields : ReplyFields) (s : State) : State :=
  reply l kind .ok fields s

/-! ### The common checks -/

/-- The body length is right for the kind, else BAD_VALUE (R178 step 3, R179 step 2). -/
def withBody {α : Type} (l : LinkId) (kind : Byte) (b : Body α) (owner : α → State → State)
    (s : State) : State :=
  match b with
  | .wrongLength => refuse l kind .badValue s
  | .fields x => owner x s

/-- The kiosk is admitted, else NOT_ADMITTED (R178 step 2). -/
def admittedOnly (k : KioskId) (kind : Byte) (checked : State → State) (s : State) : State :=
  if (s.profiles.get k).admitted then checked s else refuse (.kiosk k) kind .notAdmitted s

/-- The port exists and is in use, lies in reach and suits the kind (R178 steps 4 to 6). -/
def withKioskPort (k : KioskId) (kind : Byte) (suits : PortClass → Bool) (b : Byte)
    (owner : PortId → State → State) (s : State) : State :=
  match portOf b with
  | none => refuse (.kiosk k) kind .noSuchPort s
  | some p =>
    if s.cls p = .unused then refuse (.kiosk k) kind .noSuchPort s
    else if !inReach (s.profiles.get k) p then refuse (.kiosk k) kind .outOfReach s
    else if !suits (s.cls p) then refuse (.kiosk k) kind .wrongClass s
    else owner p s

/-- A kiosk request that names no port (R178). -/
def kioskRequest {α : Type} (k : KioskId) (kind : Byte) (b : Body α) (owner : α → State → State)
    (s : State) : State :=
  request (.kiosk k) (admittedOnly k kind (withBody (.kiosk k) kind b owner)) s

/-- A kiosk request that names a port (R178). -/
def kioskPortRequest {α : Type} (k : KioskId) (kind : Byte) (suits : PortClass → Bool) (b : Body α)
    (port : α → Byte) (owner : α → PortId → State → State) (s : State) : State :=
  kioskRequest k kind b (fun x => withKioskPort k kind suits (port x) (owner x)) s

/-- The classes that suit CLAIM, RELEASE and CLAIM_QUERY (R178). -/
def claimable (c : PortClass) : Bool := c == .scanner || c == .panel

/-- The class that suits SUBMIT. -/
def printable (c : PortClass) : Bool := c == .printer

/-- The class that suits SCAN and SCAN_STOP. -/
def scannable (c : PortClass) : Bool := c == .scanner

/-- Every class suits VOTE and PORT_QUERY. -/
def anyClass (_ : PortClass) : Bool := true

/-- A staff request (R179). -/
def staffRequest {α : Type} (kind : Byte) (b : Body α) (owner : α → State → State) (s : State) : State :=
  request .staff (withBody .staff kind b owner) s

/-- A port number 0 to 11 in a staff request, else NO_SUCH_PORT. -/
def withPort (kind : Byte) (b : Byte) (owner : PortId → State → State) (s : State) : State :=
  match portOf b with
  | none => refuse .staff kind .noSuchPort s
  | some p => owner p s

/-- A port number 0 to 11 and a class other than UNUSED, else NO_SUCH_PORT. -/
def withUsedPort (kind : Byte) (b : Byte) (owner : PortId → State → State) (s : State) : State :=
  withPort kind b (fun p s =>
    if s.cls p = .unused then refuse .staff kind .noSuchPort s else owner p s) s

/-- A used port of one of some classes, else WRONG_CLASS. -/
def withSuitedPort (kind : Byte) (suits : PortClass → Bool) (b : Byte) (owner : PortId → State → State)
    (s : State) : State :=
  withUsedPort kind b (fun p s =>
    if suits (s.cls p) then owner p s else refuse .staff kind .wrongClass s) s

/-- The class that suits CALIBRATE, ROUTE_SET, ROUTE_QUERY, SEQ_SET and SEQ_QUERY. -/
def touchable (c : PortClass) : Bool := c == .panel

/-- A kiosk number 0 to 23 in a staff request, else BAD_VALUE (R181, R182). -/
def withKiosk (kind : Byte) (b : Byte) (owner : KioskId → State → State) (s : State) : State :=
  match kioskOf b with
  | none => refuse .staff kind .badValue s
  | some k => owner k s

end Sys2Proof.Machine
end

