-- ==== Sys2Proof/Machine/Adapters.lean ====
section
/-! DEFINITION. The commands of Device Ports and Adapters: PORT_SET, PORT_QUERY, PORT_RESET and CHECK, the
frames that the Port Controller takes itself, and the expiries of its timers. -/

namespace Sys2Proof.Machine

/-! ### PORT_SET -/

/-- What keeps a port from changing its class (R146 step 3). -/
def State.classHeld (s : State) (p : PortId) : Bool :=
  !(s.claims.get p).isEmpty || !(Printer.jobs (s.printers.get p)).isEmpty || s.scanInFlight p
    || s.checkRunning p || (s.takes.get p).state != .free

/-- A port's configuration is replaced whole, and the blocks apply their fields: the holder's idle deadline
(R14), the cue enable (R108), and a change of class (R120, R147, R166). -/
def replaceConfig (p : PortId) (c : PortConfig) (s : State) : State :=
  let old := s.configs.get p
  let s := { s with configs := s.configs.put p c }
  let s := if old.idleS ≠ c.idleS then rearm p s else s
  let s :=
    if old.cueEnable ∧ c.cueEnable = false then onPanel p (fun x => { x with cue := .absent }) s else s
  if old.cls ≠ c.cls then
    classChanged p .classChange (votesGone p (onPanel p (triggerAtClass old.cls c.cls) s))
  else s

/-- PORT_SET at the Port Controller (R146). -/
def portSetAsked (b : PortSetBody) (p : PortId) (s : State) : State :=
  match configOf b with
  | none => refuse .staff Kind.portSet .badValue s
  | some c =>
    if c.cls ≠ s.cls p ∧ s.classHeld p then refuse .staff Kind.portSet .busy s
    else answer .staff Kind.portSet (.config c) (replaceConfig p c s)

/-- PORT_SET is taken (R146). -/
def portSetTaken (b : Body PortSetBody) (s : State) : State :=
  staffRequest Kind.portSet b (fun x => withPort Kind.portSet x.port (portSetAsked x)) s

/-- PORT_SET. -/
def execPortSet (b : Body PortSetBody) (s : State) : Host.Outcome State Fault Refusal :=
  done s (portSetTaken b s)

/-! ### PORT_QUERY -/

/-- What a kiosk's PORT_QUERY reads (R162). -/
def State.portView (s : State) (p : PortId) : PortView :=
  let x := s.ctls.get p
  let l := s.claims.get p
  let q := s.printers.get p
  let listed := claimable (s.cls p)
  let prints := printable (s.cls p)
  { port := p, cls := s.cls p, cond := x.cond
    fault := if x.cond = .stalled then x.fault else none
    reached := (s.power.get p).reached
    inStaffHands := (s.takes.get p).state.inStaffHands
    hall := s.hall
    held := if listed then some (holderOf l).isSome else none
    waiters := if listed then some (waitersOf l).length else none
    jobInFlight := if prints then some q.inflight.isSome else none
    queuedJobs := if prints then some q.queue.length else none }

/-- What the staff console reads beside that (R162). -/
def State.staffPortView (s : State) (p : PortId) : StaffPortView :=
  let x := s.ctls.get p
  let w := s.power.get p
  { config := s.configs.get p, identity := x.identity, mismatch := x.mismatch
    responseLeft := millisLeft 10 s.tick x.response, silenceLeft := millisLeft 10 s.tick x.silence
    check := x.check, floor := w.floor, ceiling := w.ceiling, target := s.targetOf p }

/-- A kiosk's PORT_QUERY: the holder's own is activity (R12, R162). -/
def kioskAsksPort (k : KioskId) (p : PortId) (s : State) : State :=
  let s := activity p k s
  answer (.kiosk k) Kind.portQuery (.portView (s.portView p)) s

/-- The staff console's PORT_QUERY (R162). -/
def staffAsksPort (p : PortId) (s : State) : State :=
  answer .staff Kind.portQuery (.staffPortView (s.portView p) (s.staffPortView p)) s

/-- PORT_QUERY is taken; a kiosk's needs no admission (R162, R178). -/
def portQueryTaken (l : LinkId) (b : Body Byte) (s : State) : State :=
  match l with
  | .kiosk k =>
    request l (withBody l Kind.portQuery b fun x =>
      withKioskPort k Kind.portQuery anyClass x (kioskAsksPort k)) s
  | .staff => staffRequest Kind.portQuery b (fun x => withPort Kind.portQuery x staffAsksPort) s

/-- PORT_QUERY. -/
def execPortQuery (l : LinkId) (b : Body Byte) (s : State) : Host.Outcome State Fault Refusal :=
  done s (portQueryTaken l b s)

/-! ### PORT_RESET -/

/-- PORT_RESET at the Port Controller (R158). A port already RESETTING is sent PORT_CLEAR again, and its OK reply
carries the condition too, where R158 says only that the reply is OK (DEDUCED, log 36). -/
def resetPort (p : PortId) (s : State) : State :=
  let s := onCtl p waitsDropped s
  let s :=
    if s.cond p = .resetting then s
    else changeCondition p .resetting .portReset none (onCtl p (fun x => { x with fault := none }) s)
  answer .staff Kind.portReset (.condition .resetting) (sendCommand p .portClear s)

/-- PORT_RESET is taken (R158). -/
def portResetTaken (b : Body Byte) (s : State) : State :=
  staffRequest Kind.portReset b (fun x => withUsedPort Kind.portReset x fun p s =>
    if s.cond p = .absent then refuse .staff Kind.portReset .noSuchPort s else resetPort p s) s

/-- PORT_RESET. -/
def execPortReset (b : Body Byte) (s : State) : Host.Outcome State Fault Refusal :=
  done s (portResetTaken b s)

/-! ### The port check -/

/-- Idle, as R159 says. -/
def State.portIdle (s : State) (p : PortId) : Bool :=
  (holderOf (s.claims.get p)).isNone && (s.printers.get p).inflight.isNone && !s.scanInFlight p
    && (s.takes.get p).state == .free

/-- The 32 bytes of an echo step (R160). -/
def echoPattern : CheckStep → List Byte
  | .echo1 => List.replicate 32 0x00
  | .echo2 => List.replicate 32 0xFF
  | .echo3 => List.replicate 32 0x55
  | .echo4 => List.replicate 32 0xAA
  | .test => []

/-- The record at the start of a check (R160). -/
def newCheck (duration : Nat) (now : Tick) : CheckRecord :=
  { status := .running, step := some .echo1, echo := .notRun, adapter := .notRun, mechanism := .notRun
    disturbed := false, fault := none, duration := some duration, started := some now, ended := none }

/-- A check that passed its checks starts (R159, R160). -/
def startCheck (p : PortId) (duration : Byte) (s : State) : State :=
  let s := onCtl p (fun x => { x with check := newCheck (checkDuration duration) s.tick }) s
  let s := changeCondition p .checking .checkStart none s
  let s := checkNews p (sendCommand p (.echo (echoPattern .echo1)) s)
  answer .staff Kind.check .bare s

/-- CHECK at the Port Controller (R159). -/
def checkAsked (duration : Byte) (p : PortId) (s : State) : State :=
  if s.cond p = .absent then refuse .staff Kind.check .noSuchPort s
  else if s.cond p = .checking then refuse .staff Kind.check .busy s
  else if s.cond p ≠ .serving then refuse .staff Kind.check .portFault s
  else if s.atReady p = false then refuse .staff Kind.check .powerHeld s
  else if s.portIdle p = false then refuse .staff Kind.check .busy s
  else startCheck p duration s

/-- CHECK is taken (R159). -/
def checkTaken (b : Body CheckBody) (s : State) : State :=
  staffRequest Kind.check b (fun x => withUsedPort Kind.check x.port (checkAsked x.duration)) s

/-- CHECK. -/
def execCheck (b : Body CheckBody) (s : State) : Host.Outcome State Fault Refusal := done s (checkTaken b s)

/-- A check ends DONE: SERVING, or STALLED with a fault outstanding (R161). -/
def checkDone (p : PortId) (s : State) : State :=
  let s := endCheck p .done s
  changeCondition p (if (s.ctls.get p).fault.isSome then .stalled else .serving) .checkEnd none s

/-- The check record is changed. -/
def onCheck (p : PortId) (f : CheckRecord → CheckRecord) (s : State) : State :=
  onCtl p (fun x => { x with check := f x.check }) s

/-- The step of a running check. -/
def State.checkStep (s : State) (p : PortId) : Option CheckStep :=
  if s.checkRunning p then (s.ctls.get p).check.step else none

/-- The echo step after one, and its frame. -/
def nextEcho (p : PortId) (st : CheckStep) (s : State) : State :=
  sendCommand p (.echo (echoPattern st)) (onCheck p (fun r => { r with step := some st }) s)

/-- The test stage begins: echo has passed (R160). -/
def startTest (p : PortId) (s : State) : State :=
  let s := onCheck p (fun r => { r with step := some .test, echo := .pass }) s
  sendCommand p (.testStart (((s.ctls.get p).check.duration).getD 0)) s

/-- The adapter's ECHO in a check (R160). -/
def echoed (p : PortId) (data : List Byte) (s : State) : State :=
  match s.checkStep p with
  | none => s
  | some .test => s
  | some st =>
    if data ≠ echoPattern st then checkDone p (onCheck p (fun r => { r with echo := .fail }) s)
    else
      match st with
      | .echo1 => nextEcho p .echo2 s
      | .echo2 => nextEcho p .echo3 s
      | .echo3 => nextEcho p .echo4 s
      | _ => startTest p s

/-- ECHO is taken (R160): it ends its wait (R155). -/
def echoTaken (p : PortId) (data : List Byte) (s : State) : State :=
  adapterFrame p false false [.echo] (echoed p data) s

/-- ECHO. -/
def execEcho (p : PortId) (data : List Byte) (s : State) : Host.Outcome State Fault Refusal :=
  done s (echoTaken p data s)

/-- PASS or FAIL. -/
def verdict (pass : Bool) : CheckItem := if pass then .pass else .fail

/-- The adapter's TEST_RESULT in a check; a mechanism that has failed stays so (R160). -/
def tested (p : PortId) (flags : Byte) (s : State) : State :=
  match s.checkStep p with
  | some .test =>
    checkDone p (onCheck p (fun r =>
      { r with
        adapter := verdict (flags.getLsbD 0)
        mechanism := if r.mechanism = .fail then .fail else verdict (flags.getLsbD 1) }) s)
  | _ => s

/-- TEST_RESULT is taken (R160): it ends its wait (R155). -/
def testResultTaken (p : PortId) (flags : Byte) (s : State) : State :=
  adapterFrame p false false [.testStart] (tested p flags) s

/-- TEST_RESULT. -/
def execTestResult (p : PortId) (flags : Byte) (s : State) : Host.Outcome State Fault Refusal :=
  done s (testResultTaken p flags s)

/-! ### Bringing an adapter in -/

/-- ANNOUNCE outside ABSENT and UNRESPONSIVE (R151, R154, R158). -/
def announced (p : PortId) (s : State) : State :=
  match s.cond p with
  | .identifying => sendCommand p .identAsk s
  | .resetting => identify p .announce s
  | .absent => s
  | .unresponsive => s
  | _ => identify p .adapterBack (changeCondition p .unresponsive .restarted none s)

/-- ANNOUNCE is taken (R150, R151, R154, R158): in every condition it ends a PORT_CLEAR wait (R155). -/
def announceTaken (p : PortId) (s : State) : State :=
  adapterFrame p true false [.portClear] (announced p) s

/-- ANNOUNCE. -/
def execAnnounce (p : PortId) (s : State) : Host.Outcome State Fault Refusal := done s (announceTaken p s)

/-- IDENT (R151). -/
def identified (p : PortId) (b : IdentBody) (s : State) : State :=
  if s.cond p = .identifying then
    if classOf b.cls = some (s.cls p) ∧ s.cls p ≠ .unused then
      let s := onCtl p (fun x =>
        { x with identity := some (identityOf b.model b.capabilities), fault := none }) s
      changeCondition p .serving .identified none (setReached p (some (reportedLevel b.level)) s)
    else
      becomeAbsent p .classMismatch (some b.cls)
        (onCtl p (fun x => { x with identity := none, mismatch := true }) s)
  else s

/-- IDENT is taken (R151): it ends its wait (R155). -/
def identTaken (p : PortId) (b : IdentBody) (s : State) : State :=
  adapterFrame p false true [.identAsk] (identified p b) s

/-- IDENT. -/
def execIdent (p : PortId) (b : IdentBody) (s : State) : Host.Outcome State Fault Refusal :=
  done s (identTaken p b s)

/-! ### Faults and clearing -/

/-- FAULT at the Port Controller (R153). -/
def faultAtPort (p : PortId) (f : FaultKind) (s : State) : State :=
  let hold := onCtl p (fun x => { x with fault := some f }) s
  match s.cond p with
  | .serving => changeCondition p .stalled .fault none hold
  | .stalled => portNews p .stalled .fault none hold
  | .checking =>
    portNews p .checking .fault none
      (onCheck p (fun r => { r with mechanism := .fail, fault := r.fault.orElse fun _ => some f }) hold)
  | _ => s

/-- FAULT at the Print Queue Manager (R59). -/
def jobFaulted (p : PortId) (f : FaultKind) (s : State) : State :=
  match (s.printers.get p).inflight with
  | none => s
  | some j =>
    let stalls := j.state = .starting ∨ j.state = .printing ∨ j.state = .ending
    let j' :=
      { j with
        state := if stalls then .stalled else j.state
        resume := if stalls then resumeOf j else j.resume
        fault := some f
        jams := if f = .jam then min 255 (j.jams + 1) else j.jams }
    let s := jobNews p j' (.live j'.state) (setInflight p j' s)
    if stalls then completeTake p [.held] s else s

/-- FAULT is taken (R59, R153). -/
def faultTaken (p : PortId) (kind : Byte) (s : State) : State :=
  adapterFrame p false false [] (fun s =>
    let s := faultAtPort p (faultOf kind) s
    if s.cls p = .printer then jobFaulted p (faultOf kind) s else s) s

/-- FAULT. -/
def execFault (p : PortId) (kind : Byte) (s : State) : Host.Outcome State Fault Refusal :=
  done s (faultTaken p kind s)

/-- CLEARED at the Port Controller (R153). -/
def clearedAtPort (p : PortId) (s : State) : State :=
  let free := onCtl p (fun x => { x with fault := none }) s
  match s.cond p with
  | .stalled => changeCondition p .serving .cleared none free
  | .checking => portNews p .checking .cleared none free
  | _ => s

/-- A STALLED job returns to its resume state, and its kiosk is told (R60 steps 1 and 4). -/
def resumeStalled (p : PortId) (j : Job) (s : State) : State :=
  if j.state = .stalled then
    let j' := { j with state := resumed j.resume, resume := none }
    jobNews p j' (.live j'.state) (setInflight p j' s)
  else s

/-- CLEARED at the Print Queue Manager (R60), also for a job with no fault outstanding (log 17). -/
def jobCleared (p : PortId) (s : State) : State :=
  match (s.printers.get p).inflight with
  | none => s
  | some j =>
    let j' := { j with fault := none }
    let s := setInflight p j' s
    if j.abortSent then resumeStalled p j' s
    else if (s.configs.get p).jamLimit < j.jams then abortJob p (.failed .jamLimit) s
    else if (s.configs.get p).autoResume = false then
      abortJob p (.failed (if j.fault = some .jam then .jam else .device)) s
    else resumeStalled p j' s

/-- CLEARED is taken (R60, R153). The Print Queue Manager takes it for the job that was in flight when the
frame was taken, not for one that the port's return to SERVING selects (log 40). -/
def clearedTaken (p : PortId) (s : State) : State :=
  adapterFrame p false false [] (fun s =>
    let had := (s.printers.get p).inflight.isSome
    let s := clearedAtPort p s
    if s.cls p = .printer ∧ had then jobCleared p s else s) s

/-- CLEARED. -/
def execCleared (p : PortId) (s : State) : Host.Outcome State Fault Refusal := done s (clearedTaken p s)

/-! ### Frames with no owner -/

/-- ALIVE is taken: a sign of life and no more (R152). -/
def aliveTaken (p : PortId) (s : State) : State := adapterFrame p false false [] (fun s => s) s

/-- ALIVE. -/
def execAlive (p : PortId) (s : State) : Host.Outcome State Fault Refusal := done s (aliveTaken p s)

/-- An adapter frame of a wrong length is taken, and handed to no owner (R189). -/
def wrongLengthTaken (p : PortId) (s : State) : State := adapterFrame p false false [] (fun s => s) s

/-- ADAPTER_FRAME_WRONG_LENGTH. -/
def execAdapterFrameWrongLength (p : PortId) (_kind : Byte) (s : State) :
    Host.Outcome State Fault Refusal :=
  done s (wrongLengthTaken p s)

/-- An adapter frame of a kind outside the catalogue is taken, and ignored (R152). -/
def adapterUnknownTaken (p : PortId) (s : State) : State := adapterFrame p false false [] (fun s => s) s

/-- ADAPTER_UNKNOWN_KIND. -/
def execAdapterUnknownKind (p : PortId) (_kind : Byte) (s : State) : Host.Outcome State Fault Refusal :=
  done s (adapterUnknownTaken p s)

/-! ### Timers -/

/-- The response timer's deadline is reached (R156); in UNRESPONSIVE and ABSENT none runs. -/
def responseTimedOut (p : PortId) (s : State) : State :=
  if due s.tick (s.ctls.get p).response ∧ s.cond p ≠ .unresponsive ∧ s.cond p ≠ .absent then
    changeCondition p .unresponsive .noResponse none s
  else s

/-- RESPONSE_TIMEOUT. -/
def execResponseTimeout (p : PortId) (s : State) : Host.Outcome State Fault Refusal :=
  done s (responseTimedOut p s)

/-- The adapter-silence timer's deadline is reached (R157). -/
def adapterSilent (p : PortId) (s : State) : State :=
  if due s.tick (s.ctls.get p).silence then
    if s.cond p = .absent then onCtl p (fun x => { x with mismatch := false, silence := none }) s
    else becomeAbsent p .silence none (onCtl p (fun x => { x with fault := none }) s)
  else s

/-- ADAPTER_SILENCE. -/
def execAdapterSilence (p : PortId) (s : State) : Host.Outcome State Fault Refusal :=
  done s (adapterSilent p s)

/-- The clear-spacing timer's deadline is reached (R150). -/
def clearSpacingExpired (p : PortId) (s : State) : State :=
  if due s.tick (s.ctls.get p).clearSpacing then onCtl p (fun x => { x with clearSpacing := none }) s
  else s

/-- CLEAR_SPACING_EXPIRY. -/
def execClearSpacingExpiry (p : PortId) (s : State) : Host.Outcome State Fault Refusal :=
  done s (clearSpacingExpired p s)

/-- The frame that a device link's transmitter was sending has been sent (R144, log 20). -/
def deviceFrameEnds (p : PortId) (s : State) : State := onWire p (fun w => { w with sending := none }) s

/-- DEVICE_FRAME_SENT. -/
def execDeviceFrameSent (p : PortId) (s : State) : Host.Outcome State Fault Refusal :=
  done s (deviceFrameEnds p s)

end Sys2Proof.Machine
end

