-- ==== Sys2Proof/Machine/Claims.lean ====
section
/-! DEFINITION. The commands of Claims and Grants: CLAIM, RELEASE, CLAIM_QUERY, CLAIM_LIST and the idle
expiry. -/

namespace Sys2Proof.Machine

/-- A record enters a port's list: as holder when the list has none, the takeover state is NONE and the port
is not CHECKING, and else as waiter (R5). -/
def enterList (k : KioskId) (p : PortId) (s : State) : State :=
  let c : Claim :=
    { kiosk := k, cls := (s.profiles.get k).cls, arrival := s.tick, role := .waiter, suspended := false
      deadline := none, grant := none, closing := false }
  if (holderOf (s.claims.get p)).isNone ∧ (s.takes.get p).state = .free ∧ s.cond p ≠ .checking then
    answer (.kiosk k) Kind.claim (.claimed none)
      (grant p k false (onClaims p (fun l => c :: l) s))
  else
    let s := onClaims p (insertWaiter c) s
    answer (.kiosk k) Kind.claim (.claimed (some (positionOf (s.claims.get p) k))) s

/-- The Claim Arbiter's checks of a CLAIM (R4). -/
def claimChecks (k : KioskId) (p : PortId) (s : State) : State :=
  let s := activity p k s
  let l := LinkId.kiosk k
  if s.hall ≠ .openHall then refuse l Kind.claim .closing s
  else if s.cond p = .absent then refuse l Kind.claim .noSuchPort s
  else if (claimOf (s.claims.get p) k).isSome then
    reply l Kind.claim .duplicate (.standing (s.standing p k)) s
  else if Config.claimsPerKiosk ≤ s.kioskClaims k then refuse l Kind.claim .claimLimit s
  else if Config.claimPool ≤ s.claimCount then refuse l Kind.claim .poolFull s
  else enterList k p s

/-- CLAIM is taken (R4, R5). -/
def claimTaken (k : KioskId) (b : Body Byte) (s : State) : State :=
  kioskPortRequest k Kind.claim claimable b id (fun _ => claimChecks k) s

/-- CLAIM. -/
def execClaim (k : KioskId) (b : Body Byte) (s : State) : Host.Outcome State Fault Refusal :=
  done s (claimTaken k b s)

/-- RELEASE at the Claim Arbiter (R8). -/
def releaseClaim (k : KioskId) (p : PortId) (s : State) : State :=
  match claimOf (s.claims.get p) k with
  | none => refuse (.kiosk k) Kind.release .notHolder s
  | some _ => answer (.kiosk k) Kind.release .bare (endClaim p k (some .released) s)

/-- RELEASE is taken (R8). -/
def releaseTaken (k : KioskId) (b : Body Byte) (s : State) : State :=
  kioskPortRequest k Kind.release claimable b id (fun _ => releaseClaim k) s

/-- RELEASE. -/
def execRelease (k : KioskId) (b : Body Byte) (s : State) : Host.Outcome State Fault Refusal :=
  done s (releaseTaken k b s)

/-- CLAIM_QUERY at the Claim Arbiter: the holder's own query re-arms its deadline first (R9). -/
def queryClaim (k : KioskId) (p : PortId) (s : State) : State :=
  let s := activity p k s
  let l := s.claims.get p
  answer (.kiosk k) Kind.claimQuery
    (.claimView (s.standing p k) (waitersOf l).length (holderOf l).isSome
      (s.takes.get p).state.inStaffHands) s

/-- CLAIM_QUERY is taken (R9). -/
def claimQueryTaken (k : KioskId) (b : Body Byte) (s : State) : State :=
  kioskPortRequest k Kind.claimQuery claimable b id (fun _ => queryClaim k) s

/-- CLAIM_QUERY. -/
def execClaimQuery (k : KioskId) (b : Body Byte) (s : State) : Host.Outcome State Fault Refusal :=
  done s (claimQueryTaken k b s)

/-- An entry of the CLAIM_LIST reply (R25). -/
def State.claimEntry (s : State) (p : PortId) (c : Claim) : ClaimEntry :=
  { kiosk := c.kiosk, cls := c.cls, role := c.role, suspended := c.suspended, arrival := c.arrival
    position := if c.role = .waiter then some (positionOf (s.claims.get p) c.kiosk) else none
    grant := if c.role = .holder then c.grant else none
    idleLeft := if c.role = .holder then secondsLeft s.tick c.deadline else none }

/-- CLAIM_LIST at the Claim Arbiter: up to 12 entries from the start index on (R25). -/
def listClaims (start : Byte) (p : PortId) (s : State) : State :=
  if 23 < start.toNat then refuse .staff Kind.claimList .badValue s
  else
    let l := s.claims.get p
    answer .staff Kind.claimList
      (.claimList p (s.takes.get p).state l.length start.toNat
        (((l.drop start.toNat).take 12).map (s.claimEntry p))) s

/-- CLAIM_LIST is taken (R25). -/
def claimListTaken (b : Body ListBody) (s : State) : State :=
  staffRequest Kind.claimList b
    (fun x => withSuitedPort Kind.claimList claimable x.port (listClaims x.start)) s

/-- CLAIM_LIST. -/
def execClaimList (b : Body ListBody) (s : State) : Host.Outcome State Fault Refusal :=
  done s (claimListTaken b s)

/-- The holder's idle deadline is reached (R14). An expiry that is not due changes nothing (log 3). -/
def idleExpired (p : PortId) (s : State) : State :=
  match holderOf (s.claims.get p) with
  | some c => if due s.tick c.deadline then endClaim p c.kiosk (some .idle) s else s
  | none => s

/-- IDLE_EXPIRY. -/
def execIdleExpiry (p : PortId) (s : State) : Host.Outcome State Fault Refusal := done s (idleExpired p s)

end Sys2Proof.Machine
end

