-- ==== Sys2Proof/Machine/PowerLevels.lean ====
section
/-! DEFINITION. The commands of Power Levels: VOTE, LIMIT and POWER_DONE. -/

namespace Sys2Proof.Machine

/-- VOTE at the Power Governor (R164). -/
def voteAsked (k : KioskId) (b : VoteBody) (p : PortId) (s : State) : State :=
  let v := b.level.map votedLevel
  let s := onPower p (fun x => { x with votes := x.votes.put k v }) (activity p k s)
  answer (.kiosk k) Kind.vote (.vote p v (s.targetOf p) (s.power.get p).reached) s

/-- VOTE is taken (R164). -/
def voteTaken (k : KioskId) (b : Body VoteBody) (s : State) : State :=
  kioskPortRequest k Kind.vote anyClass b (·.port) (voteAsked k) s

/-- VOTE. -/
def execVote (k : KioskId) (b : Body VoteBody) (s : State) : Host.Outcome State Fault Refusal :=
  done s (voteTaken k b s)

/-- LIMIT at the Power Governor (R165). -/
def limitAsked (b : LimitBody) (p : PortId) (s : State) : State :=
  match limitsOf b with
  | none => refuse .staff Kind.limit .badValue s
  | some x =>
    let s := onPower p (fun w => { w with floor := x.floor, ceiling := x.ceiling }) s
    answer .staff Kind.limit (.limits x.floor x.ceiling (s.targetOf p) (s.power.get p).reached) s

/-- LIMIT is taken (R165). -/
def limitTaken (b : Body LimitBody) (s : State) : State :=
  staffRequest Kind.limit b (fun x => withPort Kind.limit x.port (limitAsked x)) s

/-- LIMIT. -/
def execLimit (b : Body LimitBody) (s : State) : Host.Outcome State Fault Refusal := done s (limitTaken b s)

/-- A transition has taken the port from OFF to a level above it, in a condition in which the port is then
identified afresh (R154, R169). -/
def State.wakes (s : State) (p : PortId) (v : Level) : Bool :=
  (s.power.get p).reached == some .off && v != .off && (s.cond p == .serving || s.cond p == .stalled)

/-- POWER_DONE at the Power Governor (R169). After a wake the selection that READY calls for fails, for the
port is not SERVING. -/
def levelReached (p : PortId) (level : Byte) (s : State) : State :=
  if (s.power.get p).moving then
    let v := reportedLevel level
    let ended := onPower p (fun x => { x with moving := false }) s
    if s.wakes p v then identify p .wake (onPower p (fun x => { x with reached := some v }) ended)
    else setReached p (some v) ended
  else s

/-- POWER_DONE is taken (R169): it ends its wait (R155). -/
def powerDoneTaken (p : PortId) (level : Byte) (s : State) : State :=
  adapterFrame p false false [.powerSet] (levelReached p level) s

/-- POWER_DONE. -/
def execPowerDone (p : PortId) (level : Byte) (s : State) : Host.Outcome State Fault Refusal :=
  done s (powerDoneTaken p level s)

end Sys2Proof.Machine
end

