-- ==== Sys2Proof/Machine/Printing.lean ====
section
/-! DEFINITION. The commands of Print Jobs: SUBMIT, CANCEL, JOB_QUERY, JOB_DROP, QUEUE_LIST, the print frames
of adapters, and the gap expiry. -/

namespace Sys2Proof.Machine

/-- The value of the next-id counter after one, with 4095 followed by 1 (R45). -/
def nextId (n : Nat) : Nat := if n = 4095 then 1 else n + 1

/-- The first id from the counter's value on that names no live job, within some tries (R45). -/
def State.freeId (s : State) : Nat → Nat → Nat
  | 0, n => n
  | tries + 1, n => if s.jobLive n then s.freeId tries (nextId n) else n

/-- The tries that always find a free id: at most 64 jobs are live (R45). -/
def idTries : Nat := 65

/-- The record that an accepted SUBMIT fills (R44, R47). -/
def newJob (k : KioskId) (b : SubmitBody) (id : Nat) (now : Tick) : Job :=
  { id := id, kiosk := k, tag := b.tag, priority := priorityOf b.priority, copies := copiesOf b.copies
    pages := pagesOf b.pages, options := jobOptionsOf b, state := .queued, resume := none, fault := none
    holdSent := false, cancelRequested := .no, abortCause := none, abortSent := false, printed := 0
    pageEnds := 0, jams := 0, submitted := now }

/-- A SUBMIT that passed every check is accepted (R47). -/
def acceptJob (k : KioskId) (b : SubmitBody) (p : PortId) (s : State) : State :=
  let id := s.freeId idTries s.nextJob
  let s := { s with nextJob := nextId id }
  let s := select p (onPrinter p (fun x => { x with queue := x.queue ++ [newJob k b id s.tick] }) s)
  let place := s.placeOf p id
  answer (.kiosk k) Kind.submit
    (.submitted id (if place.isSome then .queued else .starting) place) s

/-- The Print Queue Manager's checks of a SUBMIT (R46). -/
def submitChecks (k : KioskId) (b : SubmitBody) (p : PortId) (s : State) : State :=
  let l := LinkId.kiosk k
  if s.hall ≠ .openHall then refuse l Kind.submit .closing s
  else if s.cond p = .absent then refuse l Kind.submit .noSuchPort s
  else if b.pages = 0 ∨ (b.tray.any fun t => 3 < t.toNat) then refuse l Kind.submit .badValue s
  else if Config.jobsPerKiosk ≤ s.kioskJobs k then refuse l Kind.submit .jobLimit s
  else if Config.jobPool ≤ s.jobCount then refuse l Kind.submit .poolFull s
  else acceptJob k b p s

/-- SUBMIT is taken (R46, R47). -/
def submitTaken (k : KioskId) (b : Body SubmitBody) (s : State) : State :=
  kioskPortRequest k Kind.submit printable b (·.port) (submitChecks k) s

/-- SUBMIT. -/
def execSubmit (k : KioskId) (b : Body SubmitBody) (s : State) : Host.Outcome State Fault Refusal :=
  done s (submitTaken k b s)

/-- Cancel-requested after a request: a kiosk's keeps staff, a staff one is always staff (R62, R64). -/
def requestedBy (staff : Bool) (c : CancelRequest) : CancelRequest :=
  if staff then .staff else if c = .staff then .staff else .kiosk

/-- A live job is cancelled by its state, for the kiosk or for the staff console, and the state or end that
the reply gives (R62, R64). -/
def cancelJob (p : PortId) (j : Job) (staff : Bool) (s : State) : State × JobReport :=
  let j' := { j with cancelRequested := requestedBy staff j.cancelRequested }
  match j.state with
  | .queued => (endQueued p j' .cancelled s, .ended .cancelled)
  | st => (abortJob p (if staff then .drop else .cancel) (setInflight p j' s), .live st)

/-- CANCEL at the Print Queue Manager (R62). -/
def cancelAsked (k : KioskId) (id : Half) (s : State) : State :=
  match s.findJob id.toNat with
  | none => refuse (.kiosk k) Kind.cancel .noSuchJob s
  | some (p, j) =>
    if j.kiosk ≠ k then refuse (.kiosk k) Kind.cancel .noSuchJob s
    else
      let r := cancelJob p j false s
      answer (.kiosk k) Kind.cancel (.cancelled r.2) r.1

/-- CANCEL is taken (R62). -/
def cancelTaken (k : KioskId) (b : Body Half) (s : State) : State :=
  kioskRequest k Kind.cancel b (cancelAsked k) s

/-- CANCEL. -/
def execCancel (k : KioskId) (b : Body Half) (s : State) : Host.Outcome State Fault Refusal :=
  done s (cancelTaken k b s)

/-- JOB_QUERY at the Print Queue Manager (R71). -/
def jobAsked (k : KioskId) (id : Half) (s : State) : State :=
  match s.findJob id.toNat with
  | none => refuse (.kiosk k) Kind.jobQuery .noSuchJob s
  | some (p, j) =>
    if j.kiosk ≠ k then refuse (.kiosk k) Kind.jobQuery .noSuchJob s
    else answer (.kiosk k) Kind.jobQuery (.jobRecord p j (s.placeOf p j.id)) s

/-- JOB_QUERY is taken (R71). -/
def jobQueryTaken (k : KioskId) (b : Body Half) (s : State) : State :=
  kioskRequest k Kind.jobQuery b (jobAsked k) s

/-- JOB_QUERY. -/
def execJobQuery (k : KioskId) (b : Body Half) (s : State) : Host.Outcome State Fault Refusal :=
  done s (jobQueryTaken k b s)

/-- JOB_DROP at the Print Queue Manager (R64). -/
def dropAsked (id : Half) (s : State) : State :=
  match s.findJob id.toNat with
  | none => refuse .staff Kind.jobDrop .noSuchJob s
  | some (p, j) =>
    let r := cancelJob p j true s
    answer .staff Kind.jobDrop (.dropped j.kiosk r.2) r.1

/-- JOB_DROP is taken (R64). -/
def jobDropTaken (b : Body Half) (s : State) : State := staffRequest Kind.jobDrop b dropAsked s

/-- JOB_DROP. -/
def execJobDrop (b : Body Half) (s : State) : Host.Outcome State Fault Refusal := done s (jobDropTaken b s)

/-- A summary of a job (R72). -/
def summaryOf (j : Job) : JobSummary :=
  { id := j.id, kiosk := j.kiosk, tag := j.tag, priority := j.priority, copies := j.copies
    pages := j.pages, state := j.state, printed := j.printed, jams := j.jams
    cancelRequested := j.cancelRequested, submitted := j.submitted }

/-- QUEUE_LIST at the Print Queue Manager: up to 16 summaries in the serving order (R72). -/
def listQueue (start : Byte) (p : PortId) (s : State) : State :=
  if 63 < start.toNat then refuse .staff Kind.queueList .badValue s
  else
    let x := s.printers.get p
    answer .staff Kind.queueList
      (.queueList p (s.configs.get p).queueMode (x.inflight.map summaryOf) (millisLeft 100 s.tick x.gap)
        x.queue.length start.toNat ((((s.serving p).drop start.toNat).take 16).map summaryOf)) s

/-- QUEUE_LIST is taken (R72). -/
def queueListTaken (b : Body ListBody) (s : State) : State :=
  staffRequest Kind.queueList b
    (fun x => withSuitedPort Kind.queueList printable x.port (listQueue x.start)) s

/-- QUEUE_LIST. -/
def execQueueList (b : Body ListBody) (s : State) : Host.Outcome State Fault Refusal :=
  done s (queueListTaken b s)

/-! ### Frames from the adapter -/

/-- What the Print Queue Manager does with the job in flight; nothing when there is none (R70). -/
def withInflight (p : PortId) (f : Job → State → State) (s : State) : State :=
  match (s.printers.get p).inflight with
  | none => s
  | some j => f j s

/-- PRINT_ACCEPT at the Print Queue Manager (R52). -/
def acceptedJob (p : PortId) (credit : Byte) (j : Job) (s : State) : State :=
  let start := fun j' : Job =>
    openStream p .pull (.kiosk j.kiosk) (acceptCredit credit) (holdsForward j'.state)
      (freezesStall j'.state) (setInflight p j' s)
  if j.abortSent then s
  else
    match j.state, j.resume with
    | .starting, _ =>
      let j' := { j with state := .printing }
      jobNews p j' (.live .printing) (start j')
    | .stalled, some .starting => start { j with resume := some .printing }
    | .held, some .starting => start { j with resume := some .printing }
    | _, _ => s

/-- PRINT_ACCEPT is taken (R52): the answer to PRINT_START (R155). -/
def printAcceptTaken (p : PortId) (credit : Byte) (s : State) : State :=
  classFrame p .printer [.printStart] (withInflight p (acceptedJob p credit)) s

/-- PRINT_ACCEPT. -/
def execPrintAccept (p : PortId) (credit : Byte) (s : State) : Host.Outcome State Fault Refusal :=
  done s (printAcceptTaken p credit s)

/-- Sheets saturate at 9999 (R53). -/
def sheetsOf (n : Half) : Nat := min 9999 n.toNat

/-- PROGRESS at the Print Queue Manager: a count that differs is kept and told (R53). -/
def progressed (p : PortId) (sheets : Half) (j : Job) (s : State) : State :=
  if sheetsOf sheets = j.printed then s
  else
    let j' := { j with printed := sheetsOf sheets }
    jobNews p j' (.live j'.state) (setInflight p j' s)

/-- PROGRESS is taken (R53). -/
def progressTaken (p : PortId) (sheets : Half) (s : State) : State :=
  classFrame p .printer [] (withInflight p (progressed p sheets)) s

/-- PROGRESS. -/
def execProgress (p : PortId) (sheets : Half) (s : State) : Host.Outcome State Fault Refusal :=
  done s (progressTaken p sheets s)

/-- HELD at the Claim Arbiter: it completes a take that is pending with hold asked yes (R29). -/
def heldByAdapter (p : PortId) (s : State) : State :=
  match (s.takes.get p).state with
  | .pending .held true => enterStaffHold p s
  | _ => s

/-- HELD is taken: the answer to PRINT_HOLD (R29, R155). -/
def heldTaken (p : PortId) (s : State) : State :=
  classFrame p .printer [.printHold] (heldByAdapter p) s

/-- HELD. -/
def execHeld (p : PortId) (s : State) : Host.Outcome State Fault Refusal := done s (heldTaken p s)

/-- The end state that PRINT_END gives (R56). -/
def printEndOf (outcome : Byte) (j : Job) : JobEnd :=
  if outcomeDone outcome then (if j.cancelRequested = .no then .done else .doneDespiteCancel)
  else stoppedEnd j.abortCause .device

/-- PRINT_END at the Print Queue Manager (R56). -/
def printEnded (p : PortId) (outcome : Byte) (sheets : Half) (j : Job) (s : State) : State :=
  endInflight p { j with printed := sheetsOf sheets } (printEndOf outcome j) s

/-- PRINT_END is taken: it answers PRINT_START, PRINT_ABORT and PRINT_HOLD (R56, R155). -/
def printEndTaken (p : PortId) (outcome : Byte) (sheets : Half) (s : State) : State :=
  classFrame p .printer [.printStart, .printAbort, .printHold]
    (withInflight p (printEnded p outcome sheets)) s

/-- PRINT_END. -/
def execPrintEnd (p : PortId) (outcome : Byte) (sheets : Half) (s : State) :
    Host.Outcome State Fault Refusal :=
  done s (printEndTaken p outcome sheets s)

/-- The gap deadline is reached (R51). -/
def gapExpired (p : PortId) (s : State) : State :=
  if due s.tick (s.printers.get p).gap then select p (onPrinter p (fun x => { x with gap := none }) s)
  else s

/-- GAP_EXPIRY. -/
def execGapExpiry (p : PortId) (s : State) : Host.Outcome State Fault Refusal := done s (gapExpired p s)

end Sys2Proof.Machine
end

