-- ==== Sys2Proof/Machine/Takeover.lean ====
section
/-! DEFINITION. The commands of Staff Takeover and Hall Closing: TAKE, RETURN, CLOSE, OPEN and the shield
expiry. -/

namespace Sys2Proof.Machine

/-- TAKE at the Claim Arbiter (R27). -/
def takeAsked (p : PortId) (s : State) : State :=
  let s := takePort p s
  answer .staff Kind.take (.takeover (s.takes.get p).state) s

/-- TAKE is taken (R27). -/
def takeTaken (b : Body Byte) (s : State) : State :=
  staffRequest Kind.take b (fun x => withUsedPort Kind.take x takeAsked) s

/-- TAKE. -/
def execTake (b : Body Byte) (s : State) : Host.Outcome State Fault Refusal := done s (takeTaken b s)

/-- PRINT_RESUME undoes a hold that was sent, and a HELD job leaves HELD (R61). -/
def resumeJob (p : PortId) (s : State) : State :=
  match (s.printers.get p).inflight with
  | none => s
  | some j =>
    let s := if j.holdSent then sendCommand p .printResume s else s
    let j := { j with holdSent := false }
    if j.state = .held then
      let j' :=
        if j.fault.isSome then { j with state := .stalled }
        else { j with state := resumed j.resume, resume := none }
      jobNews p j' (.live j'.state) (setInflight p j' s)
    else setInflight p j s

/-- The scan in flight is a staff scan and is aborted for a reason (R86, R87). -/
def abortStaffScan (p : PortId) (r : ScanReason) (s : State) : State :=
  match (s.scanners.get p).scan with
  | some x => if x.requester = .staff then abortScan p r s else s
  | none => s

/-- The return shield from now on (R32). -/
def State.shieldDeadline (s : State) (p : PortId) : Option Tick :=
  let n := (s.configs.get p).shieldS
  if n = 0 then none else some (after s.tick (seconds n))

/-- A port in STAFF_HOLD is given back (R32). -/
def giveBackHeld (p : PortId) (s : State) : State :=
  let s := onTake p (fun _ => ⟨.free, s.shieldDeadline p⟩) s
  let s := if s.cls p = .scanner then abortStaffScan p .returned s else s
  let s := if s.cls p = .panel then holderChanged p s else s
  let s :=
    match s.holder p with
    | some k => claimNews p k .holding (setSuspended p false s)
    | none => promote p s
  let s := if s.cls p = .printer then select p (resumeJob p s) else s
  takeNews p s

/-- A pending take is cancelled (R33). -/
def cancelTake (p : PortId) (holdAsked : Bool) (s : State) : State :=
  let s := onTake p (fun x => { x with state := .free }) s
  let s := if holdAsked then resumeJob p s else s
  takeNews p (select p (promote p s))

/-- RETURN at the Claim Arbiter (R32, R33), with the job that it gives back (R61, log 22). -/
def returnAsked (p : PortId) (s : State) : State :=
  match (s.takes.get p).state with
  | .staffHold =>
    answer .staff Kind.giveBack (.returned (some (s.configs.get p).shieldS)) (giveBackHeld p s)
  | .pending _ holdAsked => answer .staff Kind.giveBack (.returned none) (cancelTake p holdAsked s)
  | .free => answer .staff Kind.giveBack (.returned none) s

/-- RETURN is taken (R32, R33). -/
def giveBackTaken (b : Body Byte) (s : State) : State :=
  staffRequest Kind.giveBack b (fun x => withUsedPort Kind.giveBack x returnAsked) s

/-- RETURN. -/
def execGiveBack (b : Body Byte) (s : State) : Host.Outcome State Fault Refusal :=
  done s (giveBackTaken b s)

/-- A holder is dealt with at CLOSE: marked closing while its own scan is in flight on a scanner that is not
in STAFF_HOLD, and else ended at once (R37). -/
def closeHolder (p : PortId) (s : State) : State :=
  match s.holder p with
  | none => s
  | some k =>
    let own := (s.scanners.get p).scan.any fun x => x.requester == .kiosk k
    if s.cls p = .scanner ∧ (s.takes.get p).state ≠ .staffHold ∧ own then
      onClaims p (fun l => l.map fun c => if c.role = .holder then { c with closing := true } else c) s
    else endClaim p k (some .closing) s

/-- CLOSE at the Claim Arbiter (R37). -/
def closeAsked (s : State) : State :=
  let s :=
    if s.hall = .openHall then
      let s := { s with hall := .closing }
      let s := forPorts (fun p => endWaiters p .closing) s
      testQuiet (hallNews (forPorts closeHolder s))
    else s
  answer .staff Kind.closeHall (.hall s.hall) s

/-- CLOSE is taken (R37). -/
def closeHallTaken (b : Body Unit) (s : State) : State :=
  staffRequest Kind.closeHall b (fun _ => closeAsked) s

/-- CLOSE. -/
def execCloseHall (b : Body Unit) (s : State) : Host.Outcome State Fault Refusal :=
  done s (closeHallTaken b s)

/-- OPEN at the Claim Arbiter (R42). -/
def openAsked (s : State) : State :=
  if s.loader.save = .loading then refuse .staff Kind.openHall .busy s
  else
    let s :=
      if s.hall = .openHall then s
      else
        let s := { s with hall := .openHall }
        let s := forPorts (fun p => onClaims p fun l => l.map fun c => { c with closing := false }) s
        hallNews (forPorts promote s)
    answer .staff Kind.openHall (.hall s.hall) s

/-- OPEN is taken (R42). -/
def openHallTaken (b : Body Unit) (s : State) : State :=
  staffRequest Kind.openHall b (fun _ => openAsked) s

/-- OPEN. -/
def execOpenHall (b : Body Unit) (s : State) : Host.Outcome State Fault Refusal :=
  done s (openHallTaken b s)

/-- The shield deadline is reached: it becomes absent, and a take waiting for SHIELD is evaluated afresh
(R26, R29). -/
def shieldExpired (p : PortId) (s : State) : State :=
  if due s.tick (s.takes.get p).shield then
    let s := onTake p (fun x => { x with shield := none }) s
    match (s.takes.get p).state with
    | .pending .shield _ => evaluateTake p s
    | _ => s
  else s

/-- SHIELD_EXPIRY. -/
def execShieldExpiry (p : PortId) (s : State) : Host.Outcome State Fault Refusal :=
  done s (shieldExpired p s)

end Sys2Proof.Machine
end

