-- ==== Sys2Proof/Machine/Scanning.lean ====
section
/-! DEFINITION. The commands of Scanning: SCAN and SCAN_STOP of kiosks and of the staff console, and the scan
frames of adapters. -/

namespace Sys2Proof.Machine

/-! ### Asking for a scan -/

/-- The record of a scan that starts (R74, R78). -/
def newScan (requester : LinkId) (m : ScanMode) (b : ScanBody) (now : Tick) : Scan :=
  { requester := requester, mode := m, resolution := resolutionOf b.resolution
    credit := scanCredit b.credit, state := .starting, abortSent := false, reason := none
    resultGiven := false, code := none, forwarded := 0, reported := none, started := now }

/-- A SCAN that passed every check starts a scan (R78); a holder's idle deadline freezes (R13). -/
def startScan (l : LinkId) (m : ScanMode) (b : ScanBody) (p : PortId) (s : State) : State :=
  let x := newScan l m b s.tick
  let s := sendCommand p (.scanStart m x.resolution) (setScan p (some x) s)
  let s := if l = .staff then s else rearm p s
  answer l Kind.scan (.scanStarted x.resolution x.credit) s

/-- The last three checks of R76 and R77, in order. -/
def scanReady (l : LinkId) (m : ScanMode) (b : ScanBody) (p : PortId) (s : State) : State :=
  if s.cond p ≠ .serving then refuse l Kind.scan .portFault s
  else if s.atReady p = false then refuse l Kind.scan .powerHeld s
  else if s.scanInFlight p then refuse l Kind.scan .busy s
  else startScan l m b p s

/-- The Scan Controller's checks of a kiosk's SCAN (R76). -/
def scanChecks (k : KioskId) (b : ScanBody) (p : PortId) (s : State) : State :=
  let s := activity p k s
  let l := LinkId.kiosk k
  if s.hall ≠ .openHall then refuse l Kind.scan .closing s
  else
    match scanModeOf b.mode with
    | none => refuse l Kind.scan .badValue s
    | some m =>
      match holderOf (s.claims.get p) with
      | none => refuse l Kind.scan .notHolder s
      | some c =>
        if c.kiosk ≠ k then refuse l Kind.scan .notHolder s
        else if c.suspended then refuse l Kind.scan .suspended s
        else scanReady l m b p s

/-- A kiosk's SCAN is taken (R76, R78). -/
def scanTaken (k : KioskId) (b : Body ScanBody) (s : State) : State :=
  kioskPortRequest k Kind.scan scannable b (·.port) (scanChecks k) s

/-- SCAN from a kiosk. -/
def execScan (k : KioskId) (b : Body ScanBody) (s : State) : Host.Outcome State Fault Refusal :=
  done s (scanTaken k b s)

/-- The Scan Controller's checks of a staff SCAN (R77). -/
def staffScanChecks (b : ScanBody) (p : PortId) (s : State) : State :=
  match scanModeOf b.mode with
  | none => refuse .staff Kind.scan .badValue s
  | some m =>
    if (s.takes.get p).state ≠ .staffHold then refuse .staff Kind.scan .notHolder s
    else scanReady .staff m b p s

/-- A staff SCAN is taken (R77, R78). -/
def staffScanTaken (b : Body ScanBody) (s : State) : State :=
  staffRequest Kind.scan b
    (fun x => withSuitedPort Kind.scan scannable x.port (staffScanChecks x)) s

/-- SCAN from the staff console. -/
def execStaffScan (b : Body ScanBody) (s : State) : Host.Outcome State Fault Refusal :=
  done s (staffScanTaken b s)

/-! ### SCAN_STOP -/

/-- The port's scan is of a requester and has not been aborted (R86). -/
def State.stoppable (s : State) (p : PortId) (l : LinkId) : Bool :=
  (s.scanners.get p).scan.any fun x => x.requester == l && !x.abortSent

/-- The scan of a requester is stopped, and the reply says whether it was (R86). -/
def stopScan (l : LinkId) (p : PortId) (s : State) : State :=
  if s.stoppable p l then answer l Kind.scanStop (.scanStopped true) (abortScan p .stopped s)
  else answer l Kind.scanStop (.scanStopped false) s

/-- A kiosk's SCAN_STOP at the Scan Controller (R86). -/
def scanStopChecks (k : KioskId) (p : PortId) (s : State) : State :=
  let s := activity p k s
  let l := LinkId.kiosk k
  match holderOf (s.claims.get p) with
  | none => refuse l Kind.scanStop .notHolder s
  | some c =>
    if c.kiosk ≠ k then refuse l Kind.scanStop .notHolder s
    else if c.suspended then refuse l Kind.scanStop .suspended s
    else stopScan l p s

/-- A kiosk's SCAN_STOP is taken (R86). -/
def scanStopTaken (k : KioskId) (b : Body Byte) (s : State) : State :=
  kioskPortRequest k Kind.scanStop scannable b id (fun _ => scanStopChecks k) s

/-- SCAN_STOP from a kiosk. -/
def execScanStop (k : KioskId) (b : Body Byte) (s : State) : Host.Outcome State Fault Refusal :=
  done s (scanStopTaken k b s)

/-- A staff SCAN_STOP at the Scan Controller (R86). Its OK reply carries stopped yes or no as a kiosk's does, where
R86 says only that the reply is OK (DEDUCED, log 50). -/
def staffScanStopChecks (p : PortId) (s : State) : State :=
  if (s.takes.get p).state ≠ .staffHold then refuse .staff Kind.scanStop .notHolder s
  else stopScan .staff p s

/-- A staff SCAN_STOP is taken (R86). -/
def staffScanStopTaken (b : Body Byte) (s : State) : State :=
  staffRequest Kind.scanStop b
    (fun x => withSuitedPort Kind.scanStop scannable x staffScanStopChecks) s

/-- SCAN_STOP from the staff console. -/
def execStaffScanStop (b : Body Byte) (s : State) : Host.Outcome State Fault Refusal :=
  done s (staffScanStopTaken b s)

/-! ### Frames from the adapter -/

/-- What the Scan Controller does with the scan in flight; nothing when there is none. -/
def withScan (p : PortId) (f : Scan → State → State) (s : State) : State :=
  match (s.scanners.get p).scan with
  | none => s
  | some x => f x s

/-- SCAN_ACCEPT at the Scan Controller (R79). -/
def acceptedScan (p : PortId) (x : Scan) (s : State) : State :=
  if x.state = .starting ∧ x.abortSent = false then
    let s := setScan p (some { x with state := .scanning }) s
    match x.mode with
    | .image => openStream p .push x.requester x.credit false false s
    | .code => s
  else s

/-- SCAN_ACCEPT is taken: the answer to SCAN_START (R79, R155). -/
def scanAcceptTaken (p : PortId) (s : State) : State :=
  classFrame p .scanner [.scanStart] (withScan p (acceptedScan p)) s

/-- SCAN_ACCEPT. -/
def execScanAccept (p : PortId) (s : State) : Host.Outcome State Fault Refusal :=
  done s (scanAcceptTaken p s)

/-- The lengths that the text of a SCAN_CODE may have (R81, R189). -/
def codeLength (text : List Byte) : Bool := 1 ≤ text.length && text.length ≤ 64

/-- SCAN_CODE at the Scan Controller: the last code read counts, and one whose text is empty or longer than
64 bytes is ignored (R81, R189). -/
def codeRead (p : PortId) (symbology : Byte) (text : List Byte) (x : Scan) (s : State) : State :=
  if codeLength text ∧ x.mode = .code ∧ x.state = .scanning ∧ x.abortSent = false then
    setScan p (some { x with code := some ⟨symbology, text⟩ }) s
  else s

/-- SCAN_CODE is taken (R81). -/
def scanCodeTaken (p : PortId) (symbology : Byte) (text : List Byte) (s : State) : State :=
  classFrame p .scanner [] (withScan p (codeRead p symbology text)) s

/-- SCAN_CODE. -/
def execScanCode (p : PortId) (symbology : Byte) (text : List Byte) (s : State) :
    Host.Outcome State Fault Refusal :=
  done s (scanCodeTaken p symbology text s)

/-- Chunks of the port's stream are still buffered. -/
def State.buffered (s : State) (p : PortId) : Bool := (s.streams.get p).any fun x => !x.buffers.isEmpty

/-- SCAN_END(DONE) in an image scan not aborted (R83). -/
def imageDone (p : PortId) (x : Scan) (s : State) : State :=
  match x.state with
  | .starting => finishScan p x s
  | .scanning =>
    if s.buffered p then
      onOpenStream p false (fun y => { y with sourceEnded := true })
        (setScan p (some { x with state := .ending }) s)
    else finishScan p x s
  | .ending => s

/-- SCAN_END at the Scan Controller (R81, R83, R85). -/
def scanEnded (p : PortId) (outcome : Byte) (sent : BitVec 32) (x : Scan) (s : State) : State :=
  let x' := { x with reported := some sent }
  if x.abortSent then leaveFlight p (setScan p (some x') s)
  else if outcomeDone outcome then
    match x.mode with
    | .code => finishScan p x' s
    | .image => imageDone p x' s
  else finishScan p { x' with reason := some .device } s

/-- SCAN_END is taken: it answers SCAN_START and SCAN_ABORT (R83, R155). -/
def scanEndTaken (p : PortId) (outcome : Byte) (sent : BitVec 32) (s : State) : State :=
  classFrame p .scanner [.scanStart, .scanAbort] (withScan p (scanEnded p outcome sent)) s

/-- SCAN_END. -/
def execScanEnd (p : PortId) (outcome : Byte) (sent : BitVec 32) (s : State) :
    Host.Outcome State Fault Refusal :=
  done s (scanEndTaken p outcome sent s)

/-- DOC_SENSE at the Scan Controller: a changed state is kept and told to the holder (R90). -/
def documentSensed (p : PortId) (present : Bool) (s : State) : State :=
  if (s.scanners.get p).document = present then s
  else
    let s := onScanner p (fun x => { x with document := present }) s
    match s.holder p with
    | some k => docNews p k s
    | none => s

/-- DOC_SENSE is taken: bit 0 of its flags is present (R90). -/
def docSenseTaken (p : PortId) (flags : Byte) (s : State) : State :=
  classFrame p .scanner [] (documentSensed p (flags.getLsbD 0)) s

/-- DOC_SENSE. -/
def execDocSense (p : PortId) (flags : Byte) (s : State) : Host.Outcome State Fault Refusal :=
  done s (docSenseTaken p flags s)

end Sys2Proof.Machine
end

