-- ==== Sys2Proof/Machine/Image.lean ====
section
/-! DEFINITION. The stored records of 12_frame_and_record_layouts.md as bytes, and the settings image of R184:
one block of bytes with its header and its six sections, how it is written, judged and read back. -/

namespace Sys2Proof.Machine

/-! ### Numbers as bytes -/

/-- Two bytes of a number, low byte first. -/
def halfBytes (h : Half) : List Byte := [h.extractLsb' 0 8, h.extractLsb' 8 8]

/-- Four bytes of a number, low byte first. -/
def wordBytes (w : BitVec 32) : List Byte :=
  [w.extractLsb' 0 8, w.extractLsb' 8 8, w.extractLsb' 16 8, w.extractLsb' 24 8]

/-- A number as one byte. -/
def byteOf (n : Nat) : Byte := BitVec.ofNat 8 n

/-- A number as two bytes. -/
def halfOf (n : Nat) : Half := BitVec.ofNat 16 n

/-- A flag as a bit of a flags byte. -/
def flagBit (i : Nat) (v : Bool) : Byte := if v then 1#8 <<< i else 0

/-! ### Stored records (12, "Stored records") -/

def classCode : PortClass → Nat
  | .printer => 0 | .scanner => 1 | .panel => 2 | .unused => 3

def queueModeCode : QueueMode → Nat
  | .arrival => 0 | .priority => 1

/-- A port configuration record, 16 bytes. -/
def configBytes (c : PortConfig) : List Byte :=
  [byteOf (classCode c.cls)] ++ halfBytes (halfOf c.responseMs) ++ [byteOf c.wakeS]
    ++ halfBytes (halfOf c.idleS)
    ++ [byteOf c.shieldS, byteOf (queueModeCode c.queueMode), flagBit 0 c.autoResume, byteOf c.jamLimit]
    ++ halfBytes (halfOf c.gapMs)
    ++ [byteOf c.stallS, flagBit 0 c.idleDest.isSome, byteOf ((c.idleDest.map (·.val)).getD 0),
        flagBit 0 c.cueEnable]

/-- A calibration record, 15 bytes. -/
def calibrationBytes (c : Calibration) : List Byte :=
  halfBytes (halfOf c.xMin) ++ halfBytes (halfOf c.xMax) ++ halfBytes (halfOf c.yMin)
    ++ halfBytes (halfOf c.yMax)
    ++ [flagBit 0 c.swap ||| flagBit 1 c.invertX ||| flagBit 2 c.invertY]
    ++ halfBytes (halfOf c.width) ++ halfBytes (halfOf c.height) ++ [byteOf c.cols, byteOf c.rows]

/-- The type of a route entry. -/
def routeKindCode : RouteKind → Nat
  | .range => 0 | .pair => 1 | .mask => 2

/-- The action of a route entry. -/
def routeActionCode : RouteAction → Nat
  | .holder => 0
  | .kiosk _ => 1
  | .staff => 2
  | .drop => 3
  | .seqA => 4
  | .seqB => 5

/-- The kiosk of a route entry. -/
def routeKiosk : RouteAction → Option KioskId
  | .kiosk k => some k
  | .holder | .staff | .drop | .seqA | .seqB => none

/-- A route entry, 4 bytes. -/
def routeBytes (e : RouteEntry) : List Byte :=
  [flagBit 0 e.enabled ||| byteOf (2 * routeKindCode e.kind) ||| byteOf (8 * routeActionCode e.action)
      ||| flagBit 6 (routeKiosk e.action).isSome,
    e.z1, e.z2, byteOf (((routeKiosk e.action).map (·.val)).getD 0)]

/-- A kiosk profile, 6 bytes, as the OK reply to a kiosk's HELLO carries it from its flags on; the same bytes in
the image (log 46). -/
def profileRecord (f : Profile) : List Byte :=
  [flagBit 0 f.admitted, byteOf f.cls.val, byteOf f.w1.base.val, byteOf f.w1.limit.val,
    byteOf f.w2.base.val, byteOf f.w2.limit.val]

/-- A floor and a ceiling, 2 bytes, as LIMIT carries them (log 46). -/
def limitsRecord (x : PowerLimits) : List Byte := [byteOf x.floor.value, byteOf x.ceiling.value]

/-- The response of a sequence trigger. -/
def responseCode : SeqResponse → Nat
  | .notice => 0
  | .noticeTake => 1

/-- A sequence configuration, 4 bytes, as SEQ_SET carries it (log 46). -/
def seqRecord (x : SeqConfig) : List Byte :=
  [flagBit 0 x.armed] ++ halfBytes (halfOf x.windowMs) ++ [byteOf (responseCode x.response)]

/-- The cue edge. -/
def cueEdgeCode : CueEdge → Nat
  | .neither => 0 | .rising => 1 | .falling => 2 | .both => 3

/-! ### Stored records read back

A record is read as the request that carries it is. A value outside its set, which this part never writes,
gives the record's factory default, and a number out of its range is clamped (log 46). -/

/-- What a record's bytes stand for, read as a body that begins with `before`. -/
def readRecord {α β : Type} (parse : List Byte → Body α) (of : α → Option β) (default : β)
    (before bytes : List Byte) : β :=
  match parse (before ++ bytes) with
  | .fields b => (of b).getD default
  | .wrongLength => default

def readProfile : List Byte → Profile
  | [] => defaultProfile
  | flags :: rest => readRecord parseProfile (profileOf (flags.getLsbD 0)) defaultProfile [0] rest

def readConfig : List Byte → PortConfig := readRecord parsePortSet configOf defaultConfig [0]

def readLimits : List Byte → PowerLimits := readRecord parseLimit limitsOf defaultLimits [0]

def readCalibration : List Byte → Calibration :=
  readRecord parseCalibrate calibrationOf defaultCalibration [0]

def readRoute : List Byte → RouteEntry := readRecord parseRouteSet routeEntryOf defaultRoute [0, 0]

def readSeq : List Byte → SeqConfig := readRecord parseSeqSet seqConfigOf defaultSeq [0]

/-! ### The image (R184) -/

/-- The bytes of the records of a table, in order. -/
def tableBytes {α : Type} {n : Nat} (record : α → List Byte) (t : Table α n) : List Byte :=
  t.toList.flatMap record

/-- The records of a table, each of `size` bytes, read back. -/
def readTable {α : Type} (n size : Nat) (read : List Byte → α) (bytes : List Byte) : Table α n :=
  Vector.ofFn fun i => read ((bytes.drop (size * i.val)).take size)

/-- The port configurations, each with its port's floor and ceiling. -/
def portBytes (x : Settings) : List Byte :=
  allPorts.flatMap fun p => configBytes (x.configs.get p) ++ limitsRecord (x.limits.get p)

/-- The six sections of the image, in the order of R184. -/
def imageSections (x : Settings) : List Byte :=
  tableBytes profileRecord x.profiles ++ portBytes x ++ tableBytes calibrationBytes x.calibrations
    ++ tableBytes (tableBytes routeBytes) x.routes ++ tableBytes seqRecord x.sequences
    ++ [byteOf (cueEdgeCode x.cueEdge)]

/-- The bytes of the header: the format number, the length and the check word (log 46). -/
def headerLength : Nat := 5

/-- The length of the image in bytes, with its header: 24 profiles of 6, 12 configurations of 16 + 2,
12 calibration records of 15, 12 route tables of 16 times 4, 12 sequence configurations of 4, and the
cue edge. -/
def imageLength : Nat :=
  headerLength + (24 * 6 + 12 * (16 + 2) + 12 * 15 + 12 * (16 * 4) + 12 * 4 + 1)

/-- The image this part writes: format number 1, its length, and the check word over every byte that follows
the header (R184). -/
def imageBytes (x : Settings) : List Byte :=
  let sections := imageSections x
  [1] ++ halfBytes (halfOf imageLength) ++ halfBytes (checkWord sections) ++ sections

/-- What a byte of the settings memory holds that has never been written (R184, log 12). -/
def erased : Byte := 0xFF

/-- A byte of the settings memory. -/
def memoryAt (bytes : List Byte) (i : Nat) : Byte := bytes.getD i erased

/-- The header's format number. -/
def imageFormat (bytes : List Byte) : Byte := memoryAt bytes 0

/-- The header's length. -/
def imageLengthField (bytes : List Byte) : Half := half (memoryAt bytes 1) (memoryAt bytes 2)

/-- The header's check word. -/
def imageCheckField (bytes : List Byte) : Half := half (memoryAt bytes 3) (memoryAt bytes 4)

/-- The bytes that follow the header, up to the length that this part writes. -/
def imageBody (bytes : List Byte) : List Byte :=
  ((bytes ++ List.replicate imageLength erased).take imageLength).drop headerLength

/-- How an image that was read is judged (R184). -/
def judge (bytes : List Byte) : ReadOutcome :=
  if imageFormat bytes ≠ 1 then .blank
  else if imageLengthField bytes = halfOf imageLength ∧ imageCheckField bytes = checkWord (imageBody bytes)
  then .applied
  else .checkFailed

/-- The settings that a valid image holds, section by section. -/
def settingsIn (bytes : List Byte) : Settings :=
  let b := imageBody bytes
  { profiles := readTable 24 6 readProfile b
    configs := readTable 12 18 (fun r => readConfig (r.take 16)) (b.drop 144)
    limits := readTable 12 18 (fun r => readLimits (r.drop 16)) (b.drop 144)
    calibrations := readTable 12 15 readCalibration (b.drop 360)
    routes := readTable 12 64 (readTable 16 4 readRoute) (b.drop 540)
    sequences := readTable 12 4 readSeq (b.drop 1308)
    cueEdge := ((b.drop 1356).head?.bind cueEdgeOf).getD .neither }

/-- Part of a new image over part of what the memory held: a free value says of each byte whether it reached
the memory (R185, log 11). -/
def mixture (draw : Nat) (old new : List Byte) : List Byte :=
  (List.range (max old.length new.length)).map fun i =>
    if i < new.length ∧ Config.byteWritten draw i then memoryAt new i else memoryAt old i

/-- What the memory holds after a whole new image was written over the old contents. -/
def overwritten (old new : List Byte) : List Byte := new ++ old.drop new.length

/-- The memory after a write that failed or that a reset interrupted: a free value decides between the old
contents, the new image, and a mixture of the two, which fails its check word (R185, log 11). -/
def interrupted (draw : Nat) (old new : List Byte) : List Byte :=
  match Config.writeRemains draw with
  | .oldWhole => old
  | .mixed => if judge (mixture draw old new) = .checkFailed then mixture draw old new else old
  | .newWhole => overwritten old new

end Sys2Proof.Machine
end

