-- ==== Sys2Proof/Machine/Links.lean ====
section
/-! DEFINITION. The commands of Kiosk and Staff Links: HELLO, BYE, ADMIT, PROFILE_SET, KIOSK_QUERY, KIOSK_DROP,
requests of an unknown kind, the links' silence and the end of a frame, with the departure of a link. -/

namespace Sys2Proof.Machine

/-! ### A link goes DOWN (R176) -/

/-- The link unit and the delivery queue of a link that goes DOWN (R136, R143, R171, R176). -/
def unitDown (u : LinkUnit) : LinkUnit :=
  { u with
    up := false, silence := none, outstanding := false, overrun := false, reply := none, queue := []
    gap := false, sending := none, rx := [] }

/-- Streams whose partner is a link are closed (R135). -/
def closeStreamsOf (l : LinkId) (s : State) : State :=
  forPorts (fun p => onStream p fun o => o.filter fun x => x.partner != l) s

/-- The queued jobs of a kiosk on a port end for a reason (R65, R66). -/
def endQueuedOf (k : KioskId) (p : PortId) (r : FailReason) (s : State) : State :=
  ((s.printers.get p).queue.filter fun j => j.kiosk == k).foldl
    (fun s j => endQueued p j (.failed r) s) s

/-- The Print Queue Manager takes a kiosk's departure on a port (R65). -/
def departJobs (k : KioskId) (p : PortId) (s : State) : State :=
  let s := endQueuedOf k p .kioskLost s
  match (s.printers.get p).inflight with
  | some j => if j.kiosk = k then abortJob p (.failed .kioskLost) s else s
  | none => s

/-- Every vote of a kiosk is removed (R166). -/
def votesOfGone (k : KioskId) (s : State) : State :=
  forPorts (fun p => onPower p fun x => { x with votes := x.votes.put k none }) s

/-- The blocks take the departure of a kiosk (R20, R65, R87, R107, R166). -/
def kioskDeparts (k : KioskId) (s : State) : State :=
  let s := forPorts (fun p => endClaim p k none) s
  let s := forPorts (departJobs k) s
  votesOfGone k (orphanLink (.kiosk k) s)

/-- The blocks take the departure of the staff console (R87, R107, R186). A LOAD's
reply is then awaited no more (log 21). -/
def staffDeparts (s : State) : State :=
  let s := forPorts (fun p => abortStaffScan p .linkLost) s
  onLoader (fun x => { x with awaiting := false }) (orphanLink .staff s)

/-- A link goes DOWN for a cause (R176, R182). -/
def linkDown (l : LinkId) (cause : KioskCause) (s : State) : State :=
  let s := closeStreamsOf l (onLink l unitDown s)
  match l with
  | .kiosk k => kioskDeparts k (kioskNews k cause s)
  | .staff => staffDeparts s

/-! ### HELLO and BYE -/

/-- A link comes UP with the HELLO outstanding (R143, R173). -/
def unitUp (now : Tick) (u : LinkUnit) : LinkUnit :=
  { u with
    up := true, silence := some (after now silenceTicks), outstanding := true, turn := .notices
    lastPort := 11 }

/-- The notices that the owners hand over when the staff link comes UP, in the order of log 26
(R26, R148, R188). -/
def staffGreeting (s : State) : State :=
  let s := forPorts (fun p s => if (s.takes.get p).state = .free then s else takeNews p s) s
  let s := forPorts (fun p s =>
    if s.cls p = .unused then s
    else
      let x := s.ctls.get p
      portNews p x.cond (if x.cond = .absent then .announce else x.cause) none s) (hallNews s)
  hubNews s

/-- The fields of the OK reply to a HELLO (R173). -/
def State.greeting (s : State) : LinkId → ReplyFields
  | .kiosk k => .helloKiosk k (s.profiles.get k) s.hall
  | .staff => .helloStaff s.hall (allKiosks.map fun k => (s.kiosks.get k).up)

/-- A DOWN link comes UP (R173). -/
def linkUp (l : LinkId) (s : State) : State :=
  let s := onLink l (unitUp s.tick) s
  let s := match l with
    | .kiosk k => kioskNews k .hello s
    | .staff => staffGreeting s
  answer l Kind.hello (s.greeting l) s

/-- The departure of a partner that has restarted (R173): its link goes DOWN with cause HELLO as at any departure
(R176). What fell in it while the hall is CLOSING gives its HALL_STATE and its test of the QUIET condition here
(R36, R40), before the link comes UP again: the reply to the HELLO and the notices of coming UP read the hall as
the departure left it. -/
def restartDown (l : LinkId) (s : State) : State := hallFalls s (linkDown l .hello s)

/-- HELLO is taken: on a DOWN link when its length is right, and on an UP link as a restart (R172, R173). -/
def helloTaken (l : LinkId) (b : Body Unit) (s : State) : State :=
  linkFrame l
    (fun s => match b with
      | .fields _ => linkUp l s
      | .wrongLength => s)
    (stopAndWait l (withBody l Kind.hello b fun _ s => linkUp l (restartDown l s))) s

/-- HELLO. One of the four counts falls in the departure of a restart only, which has given its HALL_STATE and its
test already (`restartDown`): the end of the event compares the counts from there on. -/
def execHello (l : LinkId) (b : Body Unit) (s : State) : Host.Outcome State Fault Refusal :=
  let t := helloTaken l b s
  done t t

/-- BYE is taken: answered OK, and the link goes DOWN once that reply has been sent (R174). -/
def byeTaken (l : LinkId) (b : Body Unit) (s : State) : State :=
  request l (withBody l Kind.bye b fun _ s => answer l Kind.bye .bare s) s

/-- BYE. -/
def execBye (l : LinkId) (b : Body Unit) (s : State) : Host.Outcome State Fault Refusal :=
  done s (byeTaken l b s)

/-- A reply that ends its link when it has been sent (R174). -/
def endsLink (r : Reply) : Bool := r.kind == Kind.bye && r.code == .ok

/-- The frame that a link's transmitter was sending has been sent: a reply leaves its slot and its request is
no longer outstanding (R137), and a BYE's takes the link DOWN (R174). The time on the wire is left out (log 20). -/
def frameEnds (l : LinkId) (s : State) : State :=
  match (s.link l).sending with
  | none => s
  | some (.reply r _) =>
    let s := onLink l (fun u => { u with sending := none, reply := none, outstanding := false }) s
    if endsLink r then linkDown l .bye s else s
  | some _ => onLink l (fun u => { u with sending := none }) s

/-- FRAME_SENT. -/
def execFrameSent (l : LinkId) (s : State) : Host.Outcome State Fault Refusal := done s (frameEnds l s)

/-- A link's silence deadline is reached (R175). -/
def linkSilent (l : LinkId) (s : State) : State :=
  if due s.tick (s.link l).silence then linkDown l .silence s else s

/-- LINK_SILENCE. -/
def execLinkSilence (l : LinkId) (s : State) : Host.Outcome State Fault Refusal := done s (linkSilent l s)

/-- A request of a kind that the link does not know is answered UNKNOWN_KIND, whatever its length
(R178, R179, R189). -/
def unknownKindTaken (l : LinkId) (kind : Byte) (s : State) : State :=
  request l (refuse l kind .unknownKind) s

/-- UNKNOWN_KIND. -/
def execUnknownKind (l : LinkId) (kind : Byte) (s : State) : Host.Outcome State Fault Refusal :=
  done s (unknownKindTaken l kind s)

/-! ### Profiles (R180 to R182) -/

/-- A kiosk's admitted flag has gone off: claims, queued jobs, votes and contacts, in this order, which the
spec leaves open (R21, R66, R107, R166, R181; log 43). -/
def admissionOff (k : KioskId) (s : State) : State :=
  let s := forPorts (fun p => endClaim p k (some .notAdmitted)) s
  let s := forPorts (fun p => endQueuedOf k p .notAdmitted) s
  cutKiosk k (votesOfGone k s)

/-- A kiosk's windows have changed: claims and votes out of reach go (R22, R166). -/
def reachLost (k : KioskId) (f : Profile) (s : State) : State :=
  let s := forPorts (fun p s => if inReach f p then s else endClaim p k (some .reach) s) s
  forPorts (fun p s =>
    if inReach f p then s else onPower p (fun x => { x with votes := x.votes.put k none }) s) s

/-- A profile is replaced, and each change in it is handed to the blocks concerned (R181, R182), votes and
contacts among them also when a LOAD replaces it (R180 over R100 and R163; log 45). -/
def replaceProfile (k : KioskId) (f : Profile) (cause : KioskCause) (s : State) : State :=
  let old := s.profiles.get k
  if old = f then s
  else
    let s := kioskNews k cause { s with profiles := s.profiles.put k f }
    let s := if old.admitted ∧ f.admitted = false then admissionOff k s else s
    if sameSet old.w1 f.w1 ∧ sameSet old.w2 f.w2 then s else reachLost k f s

/-- ADMIT at the Kiosk Profiles table (R181). -/
def admissionAsked (b : AdmitBody) (k : KioskId) (s : State) : State :=
  match yesNoOf b.admitted with
  | none => refuse .staff Kind.setAdmission .badValue s
  | some v =>
    let f := { s.profiles.get k with admitted := v }
    answer .staff Kind.setAdmission (.profile f) (replaceProfile k f .setAdmission s)

/-- ADMIT is taken (R181). -/
def setAdmissionTaken (b : Body AdmitBody) (s : State) : State :=
  staffRequest Kind.setAdmission b (fun x => withKiosk Kind.setAdmission x.kiosk (admissionAsked x)) s

/-- ADMIT. -/
def execSetAdmission (b : Body AdmitBody) (s : State) : Host.Outcome State Fault Refusal :=
  done s (setAdmissionTaken b s)

/-- PROFILE_SET at the Kiosk Profiles table (R181). -/
def profileAsked (b : ProfileBody) (k : KioskId) (s : State) : State :=
  match profileOf (s.profiles.get k).admitted b with
  | none => refuse .staff Kind.profileSet .badValue s
  | some f => answer .staff Kind.profileSet (.profile f) (replaceProfile k f .profile s)

/-- PROFILE_SET is taken (R181). -/
def profileSetTaken (b : Body ProfileBody) (s : State) : State :=
  staffRequest Kind.profileSet b (fun x => withKiosk Kind.profileSet x.kiosk (profileAsked x)) s

/-- PROFILE_SET. -/
def execProfileSet (b : Body ProfileBody) (s : State) : Host.Outcome State Fault Refusal :=
  done s (profileSetTaken b s)

/-- What KIOSK_QUERY reads (R182). -/
def State.kioskView (s : State) (k : KioskId) : KioskView :=
  let u := s.kiosks.get k
  { profile := s.profiles.get k, up := u.up, outstanding := u.outstanding, claims := s.kioskClaims k
    jobs := s.kioskJobs k, votes := allPorts.countP fun p => ((s.power.get p).votes.get k).isSome
    items := u.queue.length, touches := touchCount u.queue, gapPending := u.gap
    silenceLeft := millisLeft 1 s.tick u.silence }

/-- KIOSK_QUERY at the Kiosk Profiles table (R182). -/
def kioskAsked (k : KioskId) (s : State) : State :=
  answer .staff Kind.kioskQuery (.kioskView (s.kioskView k)) s

/-- KIOSK_QUERY is taken (R182). -/
def kioskQueryTaken (b : Body Byte) (s : State) : State :=
  staffRequest Kind.kioskQuery b (fun x => withKiosk Kind.kioskQuery x kioskAsked) s

/-- KIOSK_QUERY. -/
def execKioskQuery (b : Body Byte) (s : State) : Host.Outcome State Fault Refusal :=
  done s (kioskQueryTaken b s)

/-- KIOSK_DROP at the link unit (R181). That the OK reply carries link state DOWN also where the link was DOWN
already is the model's choice: R181 says there only that the reply is OK and nothing changes (DESIGN CHOICE,
log 49). -/
def dropKiosk (k : KioskId) (s : State) : State :=
  answer .staff Kind.kioskDrop (.linkState false)
    (if (s.kiosks.get k).up then linkDown (.kiosk k) .drop s else s)

/-- KIOSK_DROP is taken (R181). -/
def kioskDropTaken (b : Body Byte) (s : State) : State :=
  staffRequest Kind.kioskDrop b (fun x => withKiosk Kind.kioskDrop x dropKiosk) s

/-- KIOSK_DROP. -/
def execKioskDrop (b : Body Byte) (s : State) : Host.Outcome State Fault Refusal :=
  done s (kioskDropTaken b s)

end Sys2Proof.Machine
end

