-- ==== Sys2Proof/Machine/Settings.lean ====
section
/-! DEFINITION. The commands of Time Base, Settings Memory and Start-up: the three resets, the start-up read,
SAVE, LOAD and HUB_IDENT with the completions of writing and reading. -/

namespace Sys2Proof.Machine

/-! ### The settings image (R184) -/

/-- The settings as they stand (R185). -/
def State.settings (s : State) : Settings where
  profiles := s.profiles
  configs := s.configs
  limits := s.power.map fun w => ⟨w.floor, w.ceiling⟩
  calibrations := s.panels.map (·.calibration)
  routes := s.panels.map (·.routes)
  sequences := s.panels.map (·.seq)
  cueEdge := s.cueEdge

/-- What the memory holds as the hub knows it, when an answer says otherwise (log 12). -/
def imageAfter (held : List Byte) : MemoryAnswer → List Byte
  | .bytes image => image
  | _ => held

/-- The outcome of a read, with the memory's contents. -/
def readOutcome (held : List Byte) (a : MemoryAnswer) : ReadOutcome :=
  match a with
  | .silent => .noMemory
  | _ => judge (imageAfter held a)

/-! ### Settings applied to the blocks -/

/-- The sequence trigger's state after a reset or a LOAD (R120). -/
def initialTrigger (c : PortClass) (armed : Bool) : SeqState :=
  if c = .panel ∧ armed then .waitA else .off

/-- A panel's settings are set, with its trigger's state and its pending cue (R94, R108, R111, R120). -/
def settlePanel (x : Settings) (p : PortId) (q : Panel) : Panel :=
  let seq := x.sequences.get p
  { q with
    calibration := x.calibrations.get p
    routes := x.routes.get p
    seq := seq
    seqState := initialTrigger (x.configs.get p).cls seq.armed
    cue := .absent }

/-- A port's configuration, limits and panel settings are set. -/
def settlePort (x : Settings) (p : PortId) (s : State) : State :=
  let s := { s with configs := s.configs.put p (x.configs.get p) }
  let s := onPower p (fun w => { w with floor := (x.limits.get p).floor,
                                        ceiling := (x.limits.get p).ceiling }) s
  onPanel p (settlePanel x p) s

/-! ### Resets and the start-up read (R187) -/

/-- The free value that a reset draws while the state is SAVING (log 11). -/
def State.memoryAtReset (s : State) : List Byte × Nat :=
  match s.loader.save, s.loader.writing with
  | .saving, some x => (interrupted s.draws s.loader.memory x, s.draws + 1)
  | _, _ => (s.loader.memory, s.draws)

/-- Every block takes its reset value; the settings memory, the cue line's level and the waiting commands are
not the hub's to reset (R187, log 31). -/
def restarted (s : State) : State :=
  { State.reset with
    cueLevel := s.cueLevel
    loader := { Loader.reset with memory := s.memoryAtReset.1 }
    draws := s.memoryAtReset.2
    pending := s.pending }

/-- POWER_ON. -/
def execPowerOn (s : State) : Host.Outcome State Fault Refusal := .next (restarted s)

/-- RESET_LINE. -/
def execResetLine (s : State) : Host.Outcome State Fault Refusal := .next (restarted s)

/-- HUB_RESET is taken, and not answered (R187). -/
def hubResetTaken (b : Body Unit) (s : State) : State :=
  staffRequest Kind.hubReset b (fun _ => restarted) s

/-- HUB_RESET. -/
def execHubReset (b : Body Unit) (s : State) : Host.Outcome State Fault Refusal :=
  done s (hubResetTaken b s)

/-- The start-up outcome that a read gives (R187). -/
def startOutcome : ReadOutcome → StartOutcome
  | .applied => .loaded
  | .blank => .defaulted .blank
  | .checkFailed => .defaulted .checkFailed
  | .noMemory => .defaulted .noMemory

/-- The start-up read ends: the settings take the image's values or the factory defaults, and the cue line is
sampled (R183, R187). -/
def startupEnds (a : MemoryAnswer) (cueHigh : Bool) (s : State) : State :=
  if s.loader.starting then
    let image := imageAfter s.loader.memory a
    let o := readOutcome s.loader.memory a
    let x := if o = .applied then settingsIn image else defaultSettings
    let s := { s with cueLevel := cueHigh, profiles := x.profiles, cueEdge := x.cueEdge }
    onLoader (fun y => { y with starting := false, outcome := some (startOutcome o), memory := image })
      (forPorts (settlePort x) s)
  else s

/-- STARTUP_READ_ENDS. -/
def execStartupReadEnds (a : MemoryAnswer) (cueHigh : Bool) (s : State) :
    Host.Outcome State Fault Refusal :=
  done s (startupEnds a cueHigh s)

/-! ### SAVE (R185) -/

/-- SAVE at the Settings Loader: the image is built from the settings as they stand. -/
def saveAsked (s : State) : State :=
  if s.loader.save = .idle then
    answer .staff Kind.save .bare
      (onLoader (fun x => { x with save := .saving, writing := some (imageBytes s.settings) }) s)
  else refuse .staff Kind.save .busy s

/-- SAVE is taken (R185). -/
def saveTaken (b : Body Unit) (s : State) : State := staffRequest Kind.save b (fun _ => saveAsked) s

/-- SAVE. -/
def execSave (b : Body Unit) (s : State) : Host.Outcome State Fault Refusal := done s (saveTaken b s)

/-- Writing ends: the state becomes IDLE, and SAVE_RESULT goes to the staff link (R185). -/
def writingEnds (ok : Bool) (s : State) : State :=
  match s.loader.save, s.loader.writing with
  | .saving, some x =>
    let memory := if ok then overwritten s.loader.memory x else interrupted s.draws s.loader.memory x
    let s := { s with draws := if ok then s.draws else s.draws + 1 }
    deliver .staff (.saveResult ok)
      (onLoader (fun y =>
        { y with save := .idle, writing := none, lastSave := some ok, memory := memory }) s)
  | _, _ => s

/-- WRITING_ENDS. -/
def execWritingEnds (ok : Bool) (s : State) : Host.Outcome State Fault Refusal := done s (writingEnds ok s)

/-! ### LOAD (R186) -/

/-- LOAD at the Settings Loader: its reply waits for the end of the read. -/
def loadAsked (s : State) : State :=
  if s.hall = .quiet ∧ s.loader.save = .idle then
    onLoader (fun x => { x with save := .loading, awaiting := true }) s
  else refuse .staff Kind.load .busy s

/-- LOAD is taken (R186). -/
def loadTaken (b : Body Unit) (s : State) : State := staffRequest Kind.load b (fun _ => loadAsked) s

/-- LOAD. -/
def execLoad (b : Body Unit) (s : State) : Host.Outcome State Fault Refusal := done s (loadTaken b s)

/-- A LOAD changes a port's class: the takeover record, the votes and the condition (R34, R147, R166,
logs 27 and 38). -/
def loadClass (p : PortId) (s : State) : State :=
  let s := takeNews p (onTake p (fun _ => Takeover.reset) s)
  classChanged p .load (votesGone p s)

/-- A LOAD's part for one port. -/
def loadPort (x : Settings) (p : PortId) (s : State) : State :=
  let old := s.cls p
  let s := settlePort x p s
  if old = s.cls p then s else loadClass p s

/-- A valid image is applied as one event (R186, log 27). A kiosk whose admitted flag it takes off loses its
contacts and votes too, as at an ADMIT, and one whose reach shrinks its votes there (R107, R166, R180; log 45). -/
def applyLoad (x : Settings) (s : State) : State :=
  let s := forKiosks (fun k => replaceProfile k (x.profiles.get k) .load) s
  let s := forPorts (loadPort x) { s with cueEdge := x.cueEdge }
  hubNews (onLoader (fun y => { y with outcome := some .loaded }) s)

/-- The reply of a LOAD, when the staff link still awaits it (R186, log 21). -/
def replyLoad (o : ReadOutcome) (s : State) : State :=
  if s.loader.awaiting then
    reply .staff Kind.load (if o = .applied then .ok else .badValue) (.loadOutcome o)
      (onLoader (fun x => { x with awaiting := false }) s)
  else s

/-- The read of a LOAD ends (R186). -/
def loadEnds (a : MemoryAnswer) (s : State) : State :=
  if s.loader.save = .loading then
    let image := imageAfter s.loader.memory a
    let o := readOutcome s.loader.memory a
    let s := onLoader (fun y => { y with save := .idle, memory := image }) s
    replyLoad o (if o = .applied then applyLoad (settingsIn image) s else s)
  else s

/-- LOAD_READ_ENDS. -/
def execLoadReadEnds (a : MemoryAnswer) (s : State) : Host.Outcome State Fault Refusal :=
  done s (loadEnds a s)

/-! ### HUB_IDENT (R188) -/

/-- HUB_IDENT at the Settings Loader. -/
def identAsked (s : State) : State :=
  answer .staff Kind.hubIdent
    (.identity 0x0A41 2412 1 1 s.tick s.loader.outcome s.loader.save s.loader.lastSave) s

/-- HUB_IDENT is taken (R188). -/
def hubIdentTaken (b : Body Unit) (s : State) : State := staffRequest Kind.hubIdent b (fun _ => identAsked) s

/-- HUB_IDENT. -/
def execHubIdent (b : Body Unit) (s : State) : Host.Outcome State Fault Refusal := done s (hubIdentTaken b s)

end Sys2Proof.Machine
end

