-- ==== Sys2Proof/Machine/Streams.lean ====
section
/-! DEFINITION. The stream frames that partners and adapters send, CHUNK and CREDIT, and the stall
deadlines. -/

namespace Sys2Proof.Machine

/-! ### Chunks -/

/-- A chunk is accepted into the buffers (R128 step 5); in PULL a LAST chunk ends the source, and the stall
deadline starts afresh (R133). -/
def bufferChunk (p : PortId) (afresh : Bool) (c : Chunk) (s : State) : State :=
  onOpenStream p afresh (fun x =>
    { x with
      buffers := x.buffers ++ [c]
      senderCredit := x.senderCredit - 1
      expected := x.expected + 1
      sourceEnded := x.sourceEnded || (x.direction == .pull && c.last) }) s

/-- A PAGE_END chunk was accepted: more page-ends than declared pages is a stream error (R54). -/
def pageEnded (p : PortId) (s : State) : State :=
  match (s.printers.get p).inflight with
  | none => s
  | some j =>
    if j.abortSent then s
    else
      let s := setInflight p { j with pageEnds := j.pageEnds + 1 } s
      if j.pages < j.pageEnds + 1 then abortJob p (.failed .streamError) s else s

/-- A chunk from a kiosk or the staff link meets its stream record (R128, R129). -/
def chunkFromLink (l : LinkId) (p : PortId) (c : Chunk) (s : State) : State :=
  match s.streams.get p with
  | none => s
  | some x =>
    if x.direction ≠ .pull ∨ x.partner ≠ l then s
    else if x.sourceEnded then s
    else if x.senderCredit = 0 ∨ c.seq ≠ x.expected then abortJob p (.failed .streamError) s
    else
      let s := bufferChunk p true c s
      if c.pageEnd then pageEnded p s else s

/-- A chunk from a device link meets its stream record (R82, R128, R129). -/
def chunkFromDevice (p : PortId) (c : Chunk) (s : State) : State :=
  match s.streams.get p with
  | none => s
  | some x =>
    if x.direction ≠ .push then s
    else if x.sourceEnded ∨ x.senderCredit = 0 ∨ c.seq ≠ x.expected then abortScan p .device s
    else bufferChunk p false c s

/-- A CHUNK is taken from a link. A wrong length reaches no stream (R172, R189); one from an adapter belongs
to its own port (log 16). -/
def chunkReceived (w : Wire) (b : Body ChunkBody) (s : State) : State :=
  match w, b with
  | .link l, .fields x =>
    linkFrame l (fun s => s) (fun s =>
      match portOf x.port with
      | some p => chunkFromLink l p (chunkOf x) s
      | none => s) s
  | .link l, .wrongLength => linkFrame l (fun s => s) (fun s => s) s
  | .device p, .fields x =>
    adapterFrame p false false [] (fun s =>
      if portOf x.port = some p then chunkFromDevice p (chunkOf x) s else s) s
  | .device p, .wrongLength => adapterFrame p false false [] (fun s => s) s

/-- CHUNK. -/
def execChunk (w : Wire) (b : Body ChunkBody) (s : State) : Host.Outcome State Fault Refusal :=
  done s (chunkReceived w b s)

/-! ### Credit -/

/-- A partner's credit is added to the sink credit of its PUSH stream, up to 255 (R131). -/
def creditFromLink (l : LinkId) (p : PortId) (n : Nat) (s : State) : State :=
  match s.streams.get p with
  | none => s
  | some x =>
    if x.direction = .push ∧ x.partner = l then
      onOpenStream p false (fun x => { x with sinkCredit := min 255 (x.sinkCredit + n) }) s
    else s

/-- A CREDIT is taken from a kiosk or the staff link (R131, R172). -/
def creditReceived (l : LinkId) (b : Body CreditBody) (s : State) : State :=
  linkFrame l (fun s => s) (fun s =>
    match b with
    | .wrongLength => s
    | .fields x =>
      match portOf x.port with
      | some p => creditFromLink l p (creditCount x.count) s
      | none => s) s

/-- CREDIT. -/
def execCredit (l : LinkId) (b : Body CreditBody) (s : State) : Host.Outcome State Fault Refusal :=
  done s (creditReceived l b s)

/-- An adapter's credit is added to the sink credit of its PULL stream, up to 8 (R130). -/
def creditFromDevice (p : PortId) (n : Nat) (s : State) : State :=
  match s.streams.get p with
  | none => s
  | some x =>
    if x.direction = .pull then
      onOpenStream p false (fun x => { x with sinkCredit := min 8 (x.sinkCredit + n) }) s
    else s

/-- A CREDIT is taken from an adapter, for its own port (R130, log 16). -/
def adapterCreditReceived (p : PortId) (b : CreditBody) (s : State) : State :=
  adapterFrame p false false [] (fun s =>
    if portOf b.port = some p then creditFromDevice p (creditCount b.count) s else s) s

/-- ADAPTER_CREDIT. -/
def execAdapterCredit (p : PortId) (b : CreditBody) (s : State) : Host.Outcome State Fault Refusal :=
  done s (adapterCreditReceived p b s)

/-! ### Stalls -/

/-- The port's stream of a direction has reached its stall deadline. -/
def State.stalledOut (s : State) (p : PortId) (d : Direction) : Bool :=
  (s.streams.get p).any fun x => x.direction == d && due s.tick x.stall

/-- The stall deadline of a PULL stream is reached (R133). -/
def kioskStalled (p : PortId) (s : State) : State :=
  if s.stalledOut p .pull then abortJob p (.failed .kioskStall) s else s

/-- KIOSK_STALL. -/
def execKioskStall (p : PortId) (s : State) : Host.Outcome State Fault Refusal := done s (kioskStalled p s)

/-- The stall deadline of a PUSH stream is reached (R134). -/
def pushStalled (p : PortId) (s : State) : State :=
  if s.stalledOut p .push then abortScan p .kioskStall s else s

/-- PUSH_STALL. -/
def execPushStall (p : PortId) (s : State) : Host.Outcome State Fault Refusal := done s (pushStalled p s)

end Sys2Proof.Machine
end

