-- ==== Sys2Proof/Machine/Touch.lean ====
section
/-! DEFINITION. The commands of the Touch Router: CALIBRATE, ROUTE_SET, ROUTE_QUERY, SEQ_SET, SEQ_QUERY and
CUE_SET, the touch reports with the route lookup, the cue line's edges and the expiries of cues and
sequences. -/

namespace Sys2Proof.Machine

/-! ### Staff requests -/

/-- CALIBRATE at the Touch Router (R95). -/
def calibrateAsked (b : CalibrateBody) (p : PortId) (s : State) : State :=
  match calibrationOf b with
  | none => refuse .staff Kind.calibrate .badValue s
  | some c =>
    answer .staff Kind.calibrate (.calibration c) (onPanel p (fun x => { x with calibration := c }) s)

/-- CALIBRATE is taken (R95). -/
def calibrateTaken (b : Body CalibrateBody) (s : State) : State :=
  staffRequest Kind.calibrate b
    (fun x => withSuitedPort Kind.calibrate touchable x.port (calibrateAsked x)) s

/-- CALIBRATE. -/
def execCalibrate (b : Body CalibrateBody) (s : State) : Host.Outcome State Fault Refusal :=
  done s (calibrateTaken b s)

/-- ROUTE_SET at the Touch Router (R118). -/
def routeSetAsked (b : RouteSetBody) (p : PortId) (s : State) : State :=
  match sixteenOf b.index, routeEntryOf b with
  | some i, some e =>
    answer .staff Kind.routeSet (.routeEntry e) (onPanel p (fun x => { x with routes := x.routes.put i e }) s)
  | _, _ => refuse .staff Kind.routeSet .badValue s

/-- ROUTE_SET is taken (R118). -/
def routeSetTaken (b : Body RouteSetBody) (s : State) : State :=
  staffRequest Kind.routeSet b
    (fun x => withSuitedPort Kind.routeSet touchable x.port (routeSetAsked x)) s

/-- ROUTE_SET. -/
def execRouteSet (b : Body RouteSetBody) (s : State) : Host.Outcome State Fault Refusal :=
  done s (routeSetTaken b s)

/-- ROUTE_QUERY at the Touch Router (R119). -/
def routesAsked (p : PortId) (s : State) : State :=
  let x := s.panels.get p
  answer .staff Kind.routeQuery (.routeTable p (s.configs.get p).idleDest x.seqState x.routes) s

/-- ROUTE_QUERY is taken (R119). -/
def routeQueryTaken (b : Body Byte) (s : State) : State :=
  staffRequest Kind.routeQuery b (fun x => withSuitedPort Kind.routeQuery touchable x routesAsked) s

/-- ROUTE_QUERY. -/
def execRouteQuery (b : Body Byte) (s : State) : Host.Outcome State Fault Refusal :=
  done s (routeQueryTaken b s)

/-- The trigger's state after a SEQ_SET (R124). -/
def stateAfterSet (armed : Bool) (st : SeqState) : SeqState :=
  if armed then (if st = .off then .waitA else st) else .off

/-- SEQ_SET at the Touch Router (R124). -/
def seqSetAsked (b : SeqSetBody) (p : PortId) (s : State) : State :=
  match seqConfigOf b with
  | none => refuse .staff Kind.seqSet .badValue s
  | some c =>
    let s := onPanel p (fun x => { x with seq := c, seqState := stateAfterSet c.armed x.seqState }) s
    answer .staff Kind.seqSet (.seqConfig c (s.panels.get p).seqState) s

/-- SEQ_SET is taken (R124). -/
def seqSetTaken (b : Body SeqSetBody) (s : State) : State :=
  staffRequest Kind.seqSet b (fun x => withSuitedPort Kind.seqSet touchable x.port (seqSetAsked x)) s

/-- SEQ_SET. -/
def execSeqSet (b : Body SeqSetBody) (s : State) : Host.Outcome State Fault Refusal :=
  done s (seqSetTaken b s)

/-- The milliseconds left in WAIT_B (R125). -/
def seqLeft (now : Tick) : SeqState → Option Nat
  | .waitB d => millisLeft 1 now (some d)
  | _ => none

/-- SEQ_QUERY at the Touch Router: it reports the state and acknowledges a match (R125). -/
def seqAsked (p : PortId) (s : State) : State :=
  let x := s.panels.get p
  answer .staff Kind.seqQuery (.seqView x.seq x.seqState (seqLeft s.tick x.seqState))
    (onPanel p (fun x => if x.seqState = .matched then { x with seqState := .waitA } else x) s)

/-- SEQ_QUERY is taken (R125). -/
def seqQueryTaken (b : Body Byte) (s : State) : State :=
  staffRequest Kind.seqQuery b (fun x => withSuitedPort Kind.seqQuery touchable x seqAsked) s

/-- SEQ_QUERY. -/
def execSeqQuery (b : Body Byte) (s : State) : Host.Outcome State Fault Refusal :=
  done s (seqQueryTaken b s)

/-- Every pending cue becomes absent (R108). -/
def cuesGone (s : State) : State := forPorts (fun p => onPanel p fun x => { x with cue := .absent }) s

/-- CUE_SET at the Touch Router (R108). -/
def cueSetAsked (b : Byte) (s : State) : State :=
  match cueEdgeOf b with
  | none => refuse .staff Kind.cueSet .badValue s
  | some e => answer .staff Kind.cueSet .bare (cuesGone { s with cueEdge := e })

/-- CUE_SET is taken (R108). -/
def cueSetTaken (b : Body Byte) (s : State) : State := staffRequest Kind.cueSet b cueSetAsked s

/-- CUE_SET. -/
def execCueSet (b : Body Byte) (s : State) : Host.Outcome State Fault Refusal := done s (cueSetTaken b s)

/-! ### The route lookup -/

/-- An entry matches a zone according to its type (R112). -/
def routeMatches (e : RouteEntry) (zone : Nat) : Bool :=
  match e.kind with
  | .range => e.z1.toNat ≤ zone && zone ≤ e.z2.toNat
  | .pair => zone == e.z1.toNat || zone == e.z2.toNat
  | .mask => (BitVec.ofNat 8 zone &&& e.z2) == (e.z1 &&& e.z2)

/-- The action that the first enabled entry that matches decides; HOLDER when none does (R113). -/
def routeAction (t : Table RouteEntry 16) (zone : Nat) : RouteAction :=
  match t.toList.find? fun e => e.enabled && routeMatches e zone with
  | some e => e.action
  | none => .holder

/-- A kiosk's link is UP and its profile is admitted. -/
def State.present (s : State) (k : KioskId) : Bool := (s.kiosks.get k).up && (s.profiles.get k).admitted

/-- The destination of the action HOLDER (R114). -/
def State.holderDest (s : State) (p : PortId) : Dest × Via :=
  if (s.takes.get p).state = .staffHold then (.link .staff, .holder)
  else
    match s.holder p with
    | some k => (.link (.kiosk k), .holder)
    | none =>
      match (s.configs.get p).idleDest with
      | some k => if s.present k then (.link (.kiosk k), .idle) else (.drop, .neither)
      | none => (.drop, .neither)

/-- The end of a step B in WAIT_B: ATTENDANT, then the take that the response asks for (R123). -/
def sequenceMatched (p : PortId) (zone : Nat) (id : Fin 16) (arrival : Tick) (s : State) : State :=
  let s := onPanel p (fun x => { x with seqState := .matched }) s
  let asks := decide ((s.panels.get p).seq.response = .noticeTake)
  let s := deliver .staff (.attendant ⟨p, .sequence, zone, id, arrival, asks⟩) s
  if asks then takePort p s else s

/-- The sequence trigger takes a step (R121). -/
def sequenceStep (p : PortId) (stepA : Bool) (zone : Nat) (id : Fin 16) (arrival : Tick) (s : State) :
    State :=
  let x := s.panels.get p
  let wait := SeqState.waitB (after s.tick (millis x.seq.windowMs))
  match x.seqState, stepA with
  | .waitA, true => onPanel p (fun x => { x with seqState := wait }) s
  | .waitB _, true => onPanel p (fun x => { x with seqState := wait }) s
  | .waitB _, false => sequenceMatched p zone id arrival s
  | _, _ => s

/-- SEQ_A or SEQ_B: a step of a trigger that is not OFF, and else HOLDER (R117). -/
def sequenceRoute (p : PortId) (stepA : Bool) (zone : Nat) (id : Fin 16) (arrival : Tick) (s : State) :
    (Dest × Via) × State :=
  if (s.panels.get p).seqState = .off then (s.holderDest p, s)
  else ((.drop, .neither), sequenceStep p stepA zone id arrival s)

/-- The route lookup of a DOWN: the destination and via, and what the lookup raises on the way
(R113 to R117). -/
def routeLookup (p : PortId) (zone : Nat) (id : Fin 16) (arrival : Tick) (s : State) :
    (Dest × Via) × State :=
  match routeAction (s.panels.get p).routes zone with
  | .holder => (s.holderDest p, s)
  | .kiosk k => (if s.present k then (.link (.kiosk k), .neither) else (.drop, .neither), s)
  | .staff =>
    ((.drop, .neither), deliver .staff (.attendant ⟨p, .zone, zone, id, arrival, false⟩) s)
  | .drop => ((.drop, .neither), s)
  | .seqA => sequenceRoute p true zone id arrival s
  | .seqB => sequenceRoute p false zone id arrival s

/-! ### Touch reports -/

/-- An accepted report, with its fields in range and its position transformed (R93, R96 to R98). -/
structure Report where
  id : Fin 16
  pos : Position
  pressure : Byte
  arrival : Tick
  deriving DecidableEq, Repr

/-- The fields of a report lie in range, and the record in force transforms it (R93, R95); none when the
report is dropped. -/
def reportOf (c : Calibration) (b : TouchBody) : Option Report :=
  match sixteenOf b.contact with
  | none => none
  | some id =>
    if 4095 < b.rawX.toNat ∨ 4095 < b.rawY.toNat then none
    else some ⟨id, transform c b.rawX.toNat b.rawY.toNat, b.pressure, b.arrival⟩

/-- The touch record made from a report (R99). -/
def recordOf (p : PortId) (ph : Phase) (r : Report) : TouchRecord :=
  { port := p, contact := r.id, phase := ph, x := r.pos.x, y := r.pos.y, zone := r.pos.zone
    pressure := r.pressure, stamp := r.arrival, edge := r.pos.edge, cancelled := false, cue := none
    gap := false }

/-- An entry leaves the contact table. -/
def removeContact (p : PortId) (id : Fin 16) (s : State) : State :=
  onPanel p (fun x => { x with contacts := x.contacts.filter fun c => c.id != id }) s

/-- The contact of a repeated id ends first: a LIVE entry with a synthetic UP (R101 step 1). -/
def endRepeated (p : PortId) (id : Fin 16) (s : State) : State :=
  match contactOf s p id with
  | none => s
  | some c => removeContact p id (if c.live then handSynthetic p c s else s)

/-- An accepted DOWN (R101). -/
def touchedDown (p : PortId) (r : Report) (s : State) : State :=
  let s := endRepeated p r.id s
  if Config.contacts ≤ (s.panels.get p).contacts.length then s
  else
    let found := routeLookup p r.pos.zone r.id r.arrival s
    let c : Contact :=
      { id := r.id, dest := found.1.1, via := found.1.2, live := true, downTick := r.arrival
        x := r.pos.x, y := r.pos.y, zone := r.pos.zone, edge := r.pos.edge }
    handReport p c.dest (recordOf p .down r)
      (onPanel p (fun x => { x with contacts := x.contacts ++ [c] }) found.2)

/-- An accepted MOVE (R102). -/
def touchedMove (p : PortId) (r : Report) (s : State) : State :=
  match contactOf s p r.id with
  | none => s
  | some c =>
    if c.live then
      let last := fun c : Contact =>
        if c.id = r.id then { c with x := r.pos.x, y := r.pos.y, zone := r.pos.zone, edge := r.pos.edge }
        else c
      handReport p c.dest (recordOf p .move r)
        (onPanel p (fun x => { x with contacts := x.contacts.map last }) s)
    else s

/-- An accepted UP (R102). -/
def touchedUp (p : PortId) (r : Report) (s : State) : State :=
  match contactOf s p r.id with
  | none => s
  | some c =>
    removeContact p r.id (if c.live then handReport p c.dest (recordOf p .up r) s else s)

/-- A dropped report marks a running check DISTURBED (R92), also one out of range (log 29). -/
def disturb (p : PortId) (s : State) : State :=
  if s.cond p = .checking then onCtl p (fun x => { x with check := { x.check with disturbed := true } }) s
  else s

/-- A report is accepted on a panel that is SERVING at READY, and else dropped (R92). -/
def touchReport (p : PortId) (b : TouchBody) (accepted : Report → State → State) (s : State) : State :=
  if s.cond p = .serving ∧ s.atReady p then
    match reportOf (s.panels.get p).calibration b with
    | some r => accepted r s
    | none => s
  else disturb p s

/-- TOUCH_REPORT with phase DOWN is taken (R92, R101). -/
def touchDownTaken (p : PortId) (b : TouchBody) (s : State) : State :=
  classFrame p .panel [] (touchReport p b (touchedDown p)) s

/-- TOUCH_DOWN. -/
def execTouchDown (p : PortId) (b : TouchBody) (s : State) : Host.Outcome State Fault Refusal :=
  done s (touchDownTaken p b s)

/-- TOUCH_REPORT with phase MOVE is taken (R92, R102). -/
def touchMoveTaken (p : PortId) (b : TouchBody) (s : State) : State :=
  classFrame p .panel [] (touchReport p b (touchedMove p)) s

/-- TOUCH_MOVE. -/
def execTouchMove (p : PortId) (b : TouchBody) (s : State) : Host.Outcome State Fault Refusal :=
  done s (touchMoveTaken p b s)

/-- TOUCH_REPORT with phase UP is taken (R92, R102). -/
def touchUpTaken (p : PortId) (b : TouchBody) (s : State) : State :=
  classFrame p .panel [] (touchReport p b (touchedUp p)) s

/-- TOUCH_UP. -/
def execTouchUp (p : PortId) (b : TouchBody) (s : State) : Host.Outcome State Fault Refusal :=
  done s (touchUpTaken p b s)

/-- A TOUCH_REPORT whose phase is none of the three is dropped as one out of range (R93, log 41). -/
def touchStrayTaken (p : PortId) (s : State) : State :=
  classFrame p .panel [] (fun s => if s.cond p = .serving ∧ s.atReady p then s else disturb p s) s

/-! ### The cue line and the deadlines -/

/-- The cue edge of the hub takes an edge's direction (R109). -/
def edgeTaken (e : CueEdge) (high : Bool) : Bool :=
  match e with
  | .neither => false
  | .rising => high
  | .falling => !high
  | .both => true

/-- A change of level on the cue line (R109, R183); none is seen before the start-up read ends (log 39). -/
def cueChanged (high : Bool) (seen : Tick) (s : State) : State :=
  if s.loader.starting ∨ s.cueLevel = high then s
  else
    let s := { s with cueLevel := high }
    if edgeTaken s.cueEdge high then
      forPorts (fun p s =>
        if s.cls p = .panel ∧ (s.configs.get p).cueEnable then
          onPanel p (fun x => { x with cue := .tick seen }) s
        else s) s
    else s

/-- CUE_EDGE. -/
def execCueEdge (high : Bool) (seen : Tick) (s : State) : Host.Outcome State Fault Refusal :=
  done s (cueChanged high seen s)

/-- The ticks after which a pending cue saturates (R109). -/
def cueTicks : Nat := 65535

/-- A pending tick's deadline to saturate (R109). -/
def cueDeadline : PendingCue → Option Tick
  | .tick t => some (after t cueTicks)
  | _ => none

/-- A pending tick becomes SATURATED (R109). -/
def cueSaturates (p : PortId) (s : State) : State :=
  if due s.tick (cueDeadline (s.panels.get p).cue) then
    onPanel p (fun x => { x with cue := .saturated }) s
  else s

/-- CUE_SATURATED. -/
def execCueSaturated (p : PortId) (s : State) : Host.Outcome State Fault Refusal :=
  done s (cueSaturates p s)

/-- The deadline of a trigger in WAIT_B. -/
def seqDeadline : SeqState → Option Tick
  | .waitB d => some d
  | _ => none

/-- A trigger's deadline is reached in WAIT_B (R122). -/
def seqExpired (p : PortId) (s : State) : State :=
  if due s.tick (seqDeadline (s.panels.get p).seqState) then
    onPanel p (fun x => { x with seqState := .waitA }) s
  else s

/-- SEQ_EXPIRY. -/
def execSeqExpiry (p : PortId) (s : State) : Host.Outcome State Fault Refusal := done s (seqExpired p s)

end Sys2Proof.Machine
end

