-- ==== Sys2Proof/Machine/Receive.lean ====
section
/-! DEFINITION. DISCARDED_FRAME: the receiver hunts again from the byte after the discarded frame's start byte
(R171), and the frames that this finds are taken. -/

namespace Sys2Proof.Machine

/-- What the taking of a frame does, by the command that the frame is; nothing for the commands that are no
frames. -/
def frameTaken (i : Instr) (s : State) : State :=
  match i with
  | .powerOn => s
  | .resetLine => s
  | .startupReadEnds _ _ => s
  | .hello l b => helloTaken l b s
  | .bye l b => byeTaken l b s
  | .claim k b => claimTaken k b s
  | .release k b => releaseTaken k b s
  | .claimQuery k b => claimQueryTaken k b s
  | .submit k b => submitTaken k b s
  | .cancel k b => cancelTaken k b s
  | .jobQuery k b => jobQueryTaken k b s
  | .scan k b => scanTaken k b s
  | .scanStop k b => scanStopTaken k b s
  | .vote k b => voteTaken k b s
  | .portQuery l b => portQueryTaken l b s
  | .staffScan b => staffScanTaken b s
  | .staffScanStop b => staffScanStopTaken b s
  | .setAdmission b => setAdmissionTaken b s
  | .profileSet b => profileSetTaken b s
  | .kioskQuery b => kioskQueryTaken b s
  | .kioskDrop b => kioskDropTaken b s
  | .portSet b => portSetTaken b s
  | .calibrate b => calibrateTaken b s
  | .routeSet b => routeSetTaken b s
  | .routeQuery b => routeQueryTaken b s
  | .seqSet b => seqSetTaken b s
  | .seqQuery b => seqQueryTaken b s
  | .cueSet b => cueSetTaken b s
  | .take b => takeTaken b s
  | .giveBack b => giveBackTaken b s
  | .closeHall b => closeHallTaken b s
  | .openHall b => openHallTaken b s
  | .limit b => limitTaken b s
  | .portReset b => portResetTaken b s
  | .check b => checkTaken b s
  | .jobDrop b => jobDropTaken b s
  | .queueList b => queueListTaken b s
  | .claimList b => claimListTaken b s
  | .save b => saveTaken b s
  | .load b => loadTaken b s
  | .hubReset b => hubResetTaken b s
  | .hubIdent b => hubIdentTaken b s
  | .unknownKind l kind => unknownKindTaken l kind s
  | .discardedFrame _ _ => s
  | .chunk w b => chunkReceived w b s
  | .credit l b => creditReceived l b s
  | .adapterCredit p b => adapterCreditReceived p b s
  | .announce p => announceTaken p s
  | .ident p b => identTaken p b s
  | .powerDone p level => powerDoneTaken p level s
  | .printAccept p credit => printAcceptTaken p credit s
  | .progress p sheets => progressTaken p sheets s
  | .held p => heldTaken p s
  | .printEnd p outcome sheets => printEndTaken p outcome sheets s
  | .fault p kind => faultTaken p kind s
  | .cleared p => clearedTaken p s
  | .scanAccept p => scanAcceptTaken p s
  | .scanCode p symbology text => scanCodeTaken p symbology text s
  | .scanEnd p outcome sent => scanEndTaken p outcome sent s
  | .touchDown p b => touchDownTaken p b s
  | .touchMove p b => touchMoveTaken p b s
  | .touchUp p b => touchUpTaken p b s
  | .docSense p flags => docSenseTaken p flags s
  | .testResult p flags => testResultTaken p flags s
  | .echo p data => echoTaken p data s
  | .alive p => aliveTaken p s
  | .adapterFrameWrongLength p _ => wrongLengthTaken p s
  | .adapterUnknownKind p _ => adapterUnknownTaken p s
  | .cueEdge _ _ => s
  | .idleExpiry _ => s
  | .shieldExpiry _ => s
  | .gapExpiry _ => s
  | .kioskStall _ => s
  | .pushStall _ => s
  | .cueSaturated _ => s
  | .seqExpiry _ => s
  | .responseTimeout _ => s
  | .adapterSilence _ => s
  | .clearSpacingExpiry _ => s
  | .linkSilence _ => s
  | .frameSent _ => s
  | .deviceFrameSent _ => s
  | .writingEnds _ => s
  | .loadReadEnds _ => s

/-- The bytes that a link's receiver holds. -/
def State.rx (s : State) : Wire → List Byte
  | .link l => (s.link l).rx
  | .device p => (s.wires.get p).rx

/-- The bytes that a link's receiver keeps. -/
def keepBytes (w : Wire) (bytes : List Byte) (s : State) : State :=
  match w with
  | .link l => onLink l (fun u => { u with rx := bytes }) s
  | .device p => onWire p (fun x => { x with rx := bytes }) s

/-- The state from which the end of a frame's event compares the four counts: the state before the frame, and
after a HELLO the state that it leaves, for a restart has tested the falls of its departure itself (R173,
`restartDown`). -/
def countedFrom (i : Instr) (before after : State) : State :=
  match i with
  | .hello _ _ => after
  | _ => before

/-- A frame that the hunt found is taken as an event of its own; a TOUCH_REPORT whose phase is none of the
three is the one frame that is no command of the table. -/
def huntedFrame (w : Wire) (f : Frame) (s : State) : State :=
  match frameCommand w s.tick f with
  | some i =>
    let t := frameTaken i s
    closeEvent (countedFrom i s t) t
  | none =>
    match w with
    | .device p => closeEvent s (touchStrayTaken p s)
    | .link _ => closeEvent s s

/-- The frame is the HELLO of a partner that has restarted: it takes its UP link DOWN (R173, R177). -/
def State.restartedBy (s : State) (w : Wire) (f : Frame) : Bool :=
  match w, frameCommand w s.tick f with
  | .link l, some (.hello _ (.fields _)) => (s.link l).up && !(s.link l).outstanding
  | _, _ => false

/-- The frames that the hunt found are taken in turn, and then the receiver keeps the bytes of a frame that is
half received. A frame that takes the link DOWN loses them: the receiver is in HUNT (R171). So does one that
resets the hub. -/
def huntedFrames (w : Wire) : List Frame → List Byte → State → State
  | [], left, s => if s.loader.starting then s else keepBytes w left s
  | f :: fs, left, s => huntedFrames w fs (if s.restartedBy w f then [] else left) (huntedFrame w f s)

/-- The bytes of a discarded frame go through the receiver: the hunt passes over the start byte of the frame
that it discards, and takes the valid frames it finds behind it (R171, log 15). -/
def bytesReceived (w : Wire) (bytes : List Byte) (s : State) : State :=
  if s.loader.starting then s
  else
    let found := hunt (s.rx w ++ bytes)
    huntedFrames w found.1 found.2 s

/-- DISCARDED_FRAME. Each frame that it hid has closed its own event, with the falls of the four counts in it, and
nothing else in it lowers one. -/
def execDiscardedFrame (w : Wire) (bytes : List Byte) (s : State) : Host.Outcome State Fault Refusal :=
  let t := bytesReceived w bytes s
  done t t

end Sys2Proof.Machine
end

