-- ==== Sys2Proof/Machine/Clock.lean ====
section
/-! DEFINITION. A tick of the Time Base (R183): what the block does when no command waits. -/

namespace Sys2Proof.Machine

/-- A command when a condition holds. -/
def when (c : Bool) (i : Instr) : List Instr := if c then [i] else []

/-- The expiries of a port that have fallen due, in the model's order (log 4). -/
def duePort (s : State) (p : PortId) : List Instr :=
  let now := s.tick
  let x := s.ctls.get p
  let q := s.panels.get p
  when (due now ((holderOf (s.claims.get p)).bind (·.deadline))) (.idleExpiry p)
    ++ when (due now (s.takes.get p).shield) (.shieldExpiry p)
    ++ when (due now (s.printers.get p).gap) (.gapExpiry p)
    ++ when (s.stalledOut p .pull) (.kioskStall p)
    ++ when (s.stalledOut p .push) (.pushStall p)
    ++ when (due now (cueDeadline q.cue)) (.cueSaturated p)
    ++ when (due now (seqDeadline q.seqState)) (.seqExpiry p)
    ++ when (due now x.response) (.responseTimeout p)
    ++ when (due now x.silence) (.adapterSilence p)
    ++ when (due now x.clearSpacing) (.clearSpacingExpiry p)

/-- The silence of a link that has fallen due. -/
def dueLink (s : State) (l : LinkId) : List Instr :=
  when (due s.tick (s.link l).silence) (.linkSilence l)

/-- Every expiry that has fallen due. -/
def dueExpiries (s : State) : List Instr := allPorts.flatMap (duePort s) ++ allLinks.flatMap (dueLink s)

/-- One tick: the counter advances, and the expiries that fall due wait as commands (R183, log 2). -/
def tickStep (s : State) : State :=
  let s := { s with tick := s.tick + 1 }
  { s with pending := s.pending ++ dueExpiries s }

end Sys2Proof.Machine
end

