-- ==== Sys2Proof/Machine/Dispatch.lean ====
section
/-! DEFINITION. Every command and its meaning. -/

namespace Sys2Proof.Machine

/-- The effect of a command on everything but the queue of waiting commands. -/
def exec (i : Instr) (s : State) : Host.Outcome State Fault Refusal :=
  match i with
  | .powerOn => Sys2Proof.Machine.execPowerOn s
  | .resetLine => Sys2Proof.Machine.execResetLine s
  | .startupReadEnds answer cueHigh => Sys2Proof.Machine.execStartupReadEnds answer cueHigh s
  | .hello l b => Sys2Proof.Machine.execHello l b s
  | .bye l b => Sys2Proof.Machine.execBye l b s
  | .claim k b => Sys2Proof.Machine.execClaim k b s
  | .release k b => Sys2Proof.Machine.execRelease k b s
  | .claimQuery k b => Sys2Proof.Machine.execClaimQuery k b s
  | .submit k b => Sys2Proof.Machine.execSubmit k b s
  | .cancel k b => Sys2Proof.Machine.execCancel k b s
  | .jobQuery k b => Sys2Proof.Machine.execJobQuery k b s
  | .scan k b => Sys2Proof.Machine.execScan k b s
  | .scanStop k b => Sys2Proof.Machine.execScanStop k b s
  | .vote k b => Sys2Proof.Machine.execVote k b s
  | .portQuery l b => Sys2Proof.Machine.execPortQuery l b s
  | .staffScan b => Sys2Proof.Machine.execStaffScan b s
  | .staffScanStop b => Sys2Proof.Machine.execStaffScanStop b s
  | .setAdmission b => Sys2Proof.Machine.execSetAdmission b s
  | .profileSet b => Sys2Proof.Machine.execProfileSet b s
  | .kioskQuery b => Sys2Proof.Machine.execKioskQuery b s
  | .kioskDrop b => Sys2Proof.Machine.execKioskDrop b s
  | .portSet b => Sys2Proof.Machine.execPortSet b s
  | .calibrate b => Sys2Proof.Machine.execCalibrate b s
  | .routeSet b => Sys2Proof.Machine.execRouteSet b s
  | .routeQuery b => Sys2Proof.Machine.execRouteQuery b s
  | .seqSet b => Sys2Proof.Machine.execSeqSet b s
  | .seqQuery b => Sys2Proof.Machine.execSeqQuery b s
  | .cueSet b => Sys2Proof.Machine.execCueSet b s
  | .take b => Sys2Proof.Machine.execTake b s
  | .giveBack b => Sys2Proof.Machine.execGiveBack b s
  | .closeHall b => Sys2Proof.Machine.execCloseHall b s
  | .openHall b => Sys2Proof.Machine.execOpenHall b s
  | .limit b => Sys2Proof.Machine.execLimit b s
  | .portReset b => Sys2Proof.Machine.execPortReset b s
  | .check b => Sys2Proof.Machine.execCheck b s
  | .jobDrop b => Sys2Proof.Machine.execJobDrop b s
  | .queueList b => Sys2Proof.Machine.execQueueList b s
  | .claimList b => Sys2Proof.Machine.execClaimList b s
  | .save b => Sys2Proof.Machine.execSave b s
  | .load b => Sys2Proof.Machine.execLoad b s
  | .hubReset b => Sys2Proof.Machine.execHubReset b s
  | .hubIdent b => Sys2Proof.Machine.execHubIdent b s
  | .unknownKind l kind => Sys2Proof.Machine.execUnknownKind l kind s
  | .discardedFrame w bytes => Sys2Proof.Machine.execDiscardedFrame w bytes s
  | .chunk w b => Sys2Proof.Machine.execChunk w b s
  | .credit l b => Sys2Proof.Machine.execCredit l b s
  | .adapterCredit p b => Sys2Proof.Machine.execAdapterCredit p b s
  | .announce p => Sys2Proof.Machine.execAnnounce p s
  | .ident p b => Sys2Proof.Machine.execIdent p b s
  | .powerDone p level => Sys2Proof.Machine.execPowerDone p level s
  | .printAccept p credit => Sys2Proof.Machine.execPrintAccept p credit s
  | .progress p sheets => Sys2Proof.Machine.execProgress p sheets s
  | .held p => Sys2Proof.Machine.execHeld p s
  | .printEnd p outcome sheets => Sys2Proof.Machine.execPrintEnd p outcome sheets s
  | .fault p kind => Sys2Proof.Machine.execFault p kind s
  | .cleared p => Sys2Proof.Machine.execCleared p s
  | .scanAccept p => Sys2Proof.Machine.execScanAccept p s
  | .scanCode p symbology text => Sys2Proof.Machine.execScanCode p symbology text s
  | .scanEnd p outcome sent => Sys2Proof.Machine.execScanEnd p outcome sent s
  | .touchDown p b => Sys2Proof.Machine.execTouchDown p b s
  | .touchMove p b => Sys2Proof.Machine.execTouchMove p b s
  | .touchUp p b => Sys2Proof.Machine.execTouchUp p b s
  | .docSense p flags => Sys2Proof.Machine.execDocSense p flags s
  | .testResult p flags => Sys2Proof.Machine.execTestResult p flags s
  | .echo p data => Sys2Proof.Machine.execEcho p data s
  | .alive p => Sys2Proof.Machine.execAlive p s
  | .adapterFrameWrongLength p kind => Sys2Proof.Machine.execAdapterFrameWrongLength p kind s
  | .adapterUnknownKind p kind => Sys2Proof.Machine.execAdapterUnknownKind p kind s
  | .cueEdge high seen => Sys2Proof.Machine.execCueEdge high seen s
  | .idleExpiry p => Sys2Proof.Machine.execIdleExpiry p s
  | .shieldExpiry p => Sys2Proof.Machine.execShieldExpiry p s
  | .gapExpiry p => Sys2Proof.Machine.execGapExpiry p s
  | .kioskStall p => Sys2Proof.Machine.execKioskStall p s
  | .pushStall p => Sys2Proof.Machine.execPushStall p s
  | .cueSaturated p => Sys2Proof.Machine.execCueSaturated p s
  | .seqExpiry p => Sys2Proof.Machine.execSeqExpiry p s
  | .responseTimeout p => Sys2Proof.Machine.execResponseTimeout p s
  | .adapterSilence p => Sys2Proof.Machine.execAdapterSilence p s
  | .clearSpacingExpiry p => Sys2Proof.Machine.execClearSpacingExpiry p s
  | .linkSilence l => Sys2Proof.Machine.execLinkSilence l s
  | .frameSent l => Sys2Proof.Machine.execFrameSent l s
  | .deviceFrameSent p => Sys2Proof.Machine.execDeviceFrameSent p s
  | .writingEnds acknowledged => Sys2Proof.Machine.execWritingEnds acknowledged s
  | .loadReadEnds answer => Sys2Proof.Machine.execLoadReadEnds answer s

end Sys2Proof.Machine
end

