-- ==== Sys2Proof/Machine/Layout.lean ====
section
/-! DEFINITION. The byte layouts of 12_frame_and_record_layouts.md in the writing direction: the envelope, the
bodies of the frames that the hub receives, and of those that it sends as far as the spec lays them out
(log 32). Bits without a meaning and absent optional fields are sent as 0 (R190). -/

namespace Sys2Proof.Machine

/-! ### The envelope -/

/-- The length field of a frame: the kind byte and the body. -/
def lengthOf (f : Frame) : Half := halfOf (f.body.length + 1)

/-- The bytes over which a frame's check word is computed. -/
def checkedBytes (f : Frame) : List Byte := halfBytes (lengthOf f) ++ f.kind :: f.body

/-- A whole frame as it goes over a link (12, "The frame envelope"). -/
def frameBytes (f : Frame) : List Byte :=
  startByte :: (checkedBytes f ++ halfBytes (checkWord (checkedBytes f)))

/-! ### Codes (12, "Common encodings", "Replies and result codes") -/

def hallCode : Hall → Nat
  | .openHall => 0 | .closing => 1 | .quiet => 2

def faultCode : Option FaultKind → Nat
  | none => 0
  | some .jam => 1 | some .paperOut => 2 | some .coverOpen => 3
  | some .lamp => 4 | some .feed => 5 | some .other => 6

def failCode : FailReason → Nat
  | .streamError => 1 | .kioskStall => 2 | .jamLimit => 3 | .jam => 4 | .device => 5
  | .deviceSilent => 6 | .deviceLost => 7 | .portReset => 8 | .kioskLost => 9 | .notAdmitted => 10

def jobStateCode : JobReport → Nat
  | .live .queued => 0 | .live .starting => 1 | .live .printing => 2 | .live .stalled => 3
  | .live .held => 4 | .live .ending => 5
  | .ended .done => 6 | .ended .doneDespiteCancel => 7 | .ended .cancelled => 8
  | .ended (.failed _) => 9

/-- The FAILED reason, 0 when absent. -/
def reasonCode : JobReport → Nat
  | .ended (.failed r) => failCode r
  | _ => 0

def endCode : EndReason → Nat
  | .released => 1 | .idle => 2 | .reach => 3 | .notAdmitted => 4 | .closing => 5 | .deviceLost => 6

def resultCode : ResultCode → Nat
  | .ok => 0 | .unknownKind => 1 | .notAdmitted => 2 | .badValue => 3 | .noSuchPort => 4
  | .outOfReach => 5 | .wrongClass => 6 | .duplicate => 7 | .claimLimit => 8 | .poolFull => 9
  | .notHolder => 10 | .suspended => 11 | .closing => 12 | .jobLimit => 13 | .noSuchJob => 14
  | .busy => 15 | .portFault => 16 | .powerHeld => 17

def phaseCode : Phase → Nat
  | .down => 0 | .move => 1 | .up => 2

/-! ### Bodies of the frames that the hub receives -/

def submitBytes (b : SubmitBody) : List Byte :=
  [b.port] ++ halfBytes b.tag ++ [b.priority, b.copies] ++ halfBytes b.pages ++ [b.options]
    ++ b.tray.toList

def scanBytes (b : ScanBody) : List Byte :=
  [b.port, b.mode] ++ halfBytes b.resolution ++ [b.credit]

def voteBytes (b : VoteBody) : List Byte := [b.port, flagBit 0 b.level.isSome] ++ b.level.toList

def profileBytes (b : ProfileBody) : List Byte :=
  [b.kiosk, b.cls, b.w1Base, b.w1Limit, b.w2Base, b.w2Limit]

def portSetBytes (b : PortSetBody) : List Byte :=
  [b.port, b.cls] ++ halfBytes b.responseMs ++ [b.wakeS] ++ halfBytes b.idleS
    ++ [b.shieldS, b.queueMode, b.autoResume, b.jamLimit] ++ halfBytes b.gapMs
    ++ [b.stallS, b.flags, b.idleDest, b.cueEnable]

def calibrateBytes (b : CalibrateBody) : List Byte :=
  [b.port] ++ halfBytes b.xMin ++ halfBytes b.xMax ++ halfBytes b.yMin ++ halfBytes b.yMax ++ [b.flags]
    ++ halfBytes b.width ++ halfBytes b.height ++ [b.cols, b.rows]

def routeSetBytes (b : RouteSetBody) : List Byte := [b.port, b.index, b.control, b.z1, b.z2, b.kiosk]

def seqSetBytes (b : SeqSetBody) : List Byte := [b.port, b.armed] ++ halfBytes b.windowMs ++ [b.response]

def chunkBodyBytes (b : ChunkBody) : List Byte := [b.port, b.seq, b.flags] ++ b.data

def touchReportBytes (ph : Phase) (b : TouchBody) : List Byte :=
  [b.contact, byteOf (phaseCode ph)] ++ halfBytes b.rawX ++ halfBytes b.rawY ++ [b.pressure]

/-- A frame of a kind with a body, when the body's fields are there. -/
def bodyFrame {α : Type} (w : Wire) (kind : Byte) (b : Body α) (bytes : α → List Byte) :
    Option (Wire × Frame) :=
  match b with
  | .fields x => some (w, ⟨kind, bytes x⟩)
  | .wrongLength => none

/-- No body. -/
def noBytes (_ : Unit) : List Byte := []

/-- A body of one byte. -/
def oneByte (b : Byte) : List Byte := [b]

/-- The frame that a command is, and the link it comes on: none for a command that is no frame, and for one
whose bytes its operands do not give (a wrong length, an unknown kind, a discarded frame). -/
def frameOf (i : Instr) : Option (Wire × Frame) :=
  match i with
  | .hello l b => bodyFrame (.link l) Kind.hello b noBytes
  | .bye l b => bodyFrame (.link l) Kind.bye b noBytes
  | .claim k b => bodyFrame (.link (.kiosk k)) Kind.claim b oneByte
  | .release k b => bodyFrame (.link (.kiosk k)) Kind.release b oneByte
  | .claimQuery k b => bodyFrame (.link (.kiosk k)) Kind.claimQuery b oneByte
  | .submit k b => bodyFrame (.link (.kiosk k)) Kind.submit b submitBytes
  | .cancel k b => bodyFrame (.link (.kiosk k)) Kind.cancel b halfBytes
  | .jobQuery k b => bodyFrame (.link (.kiosk k)) Kind.jobQuery b halfBytes
  | .scan k b => bodyFrame (.link (.kiosk k)) Kind.scan b scanBytes
  | .scanStop k b => bodyFrame (.link (.kiosk k)) Kind.scanStop b oneByte
  | .vote k b => bodyFrame (.link (.kiosk k)) Kind.vote b voteBytes
  | .portQuery l b => bodyFrame (.link l) Kind.portQuery b oneByte
  | .staffScan b => bodyFrame (.link .staff) Kind.scan b scanBytes
  | .staffScanStop b => bodyFrame (.link .staff) Kind.scanStop b oneByte
  | .setAdmission b => bodyFrame (.link .staff) Kind.setAdmission b fun x => [x.kiosk, x.admitted]
  | .profileSet b => bodyFrame (.link .staff) Kind.profileSet b profileBytes
  | .kioskQuery b => bodyFrame (.link .staff) Kind.kioskQuery b oneByte
  | .kioskDrop b => bodyFrame (.link .staff) Kind.kioskDrop b oneByte
  | .portSet b => bodyFrame (.link .staff) Kind.portSet b portSetBytes
  | .calibrate b => bodyFrame (.link .staff) Kind.calibrate b calibrateBytes
  | .routeSet b => bodyFrame (.link .staff) Kind.routeSet b routeSetBytes
  | .routeQuery b => bodyFrame (.link .staff) Kind.routeQuery b oneByte
  | .seqSet b => bodyFrame (.link .staff) Kind.seqSet b seqSetBytes
  | .seqQuery b => bodyFrame (.link .staff) Kind.seqQuery b oneByte
  | .cueSet b => bodyFrame (.link .staff) Kind.cueSet b oneByte
  | .take b => bodyFrame (.link .staff) Kind.take b oneByte
  | .giveBack b => bodyFrame (.link .staff) Kind.giveBack b oneByte
  | .closeHall b => bodyFrame (.link .staff) Kind.closeHall b noBytes
  | .openHall b => bodyFrame (.link .staff) Kind.openHall b noBytes
  | .limit b => bodyFrame (.link .staff) Kind.limit b fun x => [x.port, x.floor, x.ceiling]
  | .portReset b => bodyFrame (.link .staff) Kind.portReset b oneByte
  | .check b => bodyFrame (.link .staff) Kind.check b fun x => [x.port, x.duration]
  | .jobDrop b => bodyFrame (.link .staff) Kind.jobDrop b halfBytes
  | .queueList b => bodyFrame (.link .staff) Kind.queueList b fun x => [x.port, x.start]
  | .claimList b => bodyFrame (.link .staff) Kind.claimList b fun x => [x.port, x.start]
  | .save b => bodyFrame (.link .staff) Kind.save b noBytes
  | .load b => bodyFrame (.link .staff) Kind.load b noBytes
  | .hubReset b => bodyFrame (.link .staff) Kind.hubReset b noBytes
  | .hubIdent b => bodyFrame (.link .staff) Kind.hubIdent b noBytes
  | .chunk w b => bodyFrame w Kind.chunk b chunkBodyBytes
  | .credit l b => bodyFrame (.link l) Kind.credit b fun x => [x.port, x.count]
  | .adapterCredit p b => some (.device p, ⟨Kind.credit, [b.port, b.count]⟩)
  | .announce p => some (.device p, ⟨Kind.announce, []⟩)
  | .ident p b =>
    some (.device p, ⟨Kind.ident, [b.cls] ++ halfBytes b.model ++ [b.capabilities, b.level]⟩)
  | .powerDone p l => some (.device p, ⟨Kind.powerDone, [l]⟩)
  | .printAccept p c => some (.device p, ⟨Kind.printAccept, [c]⟩)
  | .progress p n => some (.device p, ⟨Kind.progress, halfBytes n⟩)
  | .held p => some (.device p, ⟨Kind.held, []⟩)
  | .printEnd p o n => some (.device p, ⟨Kind.printEnd, [o] ++ halfBytes n⟩)
  | .fault p x => some (.device p, ⟨Kind.fault, [x]⟩)
  | .cleared p => some (.device p, ⟨Kind.cleared, []⟩)
  | .scanAccept p => some (.device p, ⟨Kind.scanAccept, []⟩)
  | .scanCode p y text => some (.device p, ⟨Kind.scanCode, [y] ++ text⟩)
  | .scanEnd p o n => some (.device p, ⟨Kind.scanEnd, [o] ++ wordBytes n⟩)
  | .touchDown p b => some (.device p, ⟨Kind.touchReport, touchReportBytes .down b⟩)
  | .touchMove p b => some (.device p, ⟨Kind.touchReport, touchReportBytes .move b⟩)
  | .touchUp p b => some (.device p, ⟨Kind.touchReport, touchReportBytes .up b⟩)
  | .docSense p x => some (.device p, ⟨Kind.docSense, [x]⟩)
  | .testResult p x => some (.device p, ⟨Kind.testResult, [x]⟩)
  | .echo p data => some (.device p, ⟨Kind.echo, data⟩)
  | .alive p => some (.device p, ⟨Kind.alive, []⟩)
  | .powerOn => none
  | .resetLine => none
  | .startupReadEnds _ _ => none
  | .unknownKind _ _ => none
  | .discardedFrame _ _ => none
  | .adapterFrameWrongLength _ _ => none
  | .adapterUnknownKind _ _ => none
  | .cueEdge _ _ => none
  | .idleExpiry _ => none
  | .shieldExpiry _ => none
  | .gapExpiry _ => none
  | .kioskStall _ => none
  | .pushStall _ => none
  | .cueSaturated _ => none
  | .seqExpiry _ => none
  | .responseTimeout _ => none
  | .adapterSilence _ => none
  | .clearSpacingExpiry _ => none
  | .linkSilence _ => none
  | .frameSent _ => none
  | .deviceFrameSent _ => none
  | .writingEnds _ => none
  | .loadReadEnds _ => none

/-- The tick at which a frame command arrived, when its operands carry one (R92). -/
def arrivalOf (i : Instr) : Tick :=
  match i with
  | .touchDown _ b => b.arrival
  | .touchMove _ b => b.arrival
  | .touchUp _ b => b.arrival
  | _ => 0

/-! ### Frames that the hub sends -/

/-- The three bytes that begin every REPLY body. -/
def replyHeader (r : Reply) (overrun : Bool) : List Byte :=
  [r.kind, byteOf (resultCode r.code), flagBit 0 overrun]

/-- The 24 link states of the staff console's HELLO reply: bit k of the 24-bit value is Kk's. -/
def upBits (up : List Bool) : BitVec 24 :=
  up.foldr (fun v (acc : BitVec 24) => (acc <<< 1) ||| (if v then 1 else 0)) 0

/-- The fields of a reply from offset 3 on, where the spec lays them out; none where it does not. -/
def replyBytes : ReplyFields → Option (List Byte)
  | .bare => some []
  | .helloKiosk k f h =>
    some ([byteOf k.val] ++ profileRecord f ++ [byteOf (hallCode h)])
  | .helloStaff h up =>
    let v := upBits up
    some [byteOf (hallCode h), v.extractLsb' 0 8, v.extractLsb' 8 8, v.extractLsb' 16 8]
  | .config c => some (configBytes c)
  | .calibration c => some (calibrationBytes c)
  | .routeEntry e => some (routeBytes e)
  | _ => none

/-- CLAIM_STATE, 4 bytes. -/
def claimStateBytes (lost : Bool) (p : PortId) (n : ClaimNews) : List Byte :=
  [flagBit 0 lost, byteOf p.val] ++
    (match n with
     | .ended r => [0, byteOf (endCode r)]
     | .holding => [1, 0]
     | .suspended => [2, 0])

/-- JOB_STATE, 11 bytes. -/
def jobStateBytes (lost : Bool) (n : JobNotice) : List Byte :=
  [flagBit 0 lost ||| flagBit 1 n.byStaff] ++ halfBytes (halfOf n.id) ++ halfBytes n.tag
    ++ [byteOf n.port.val, byteOf (jobStateCode n.report)] ++ halfBytes (halfOf n.printed)
    ++ [byteOf (faultCode n.fault), byteOf (reasonCode n.report)]

/-- TOUCH, 12 bytes, or 14 with CUE. -/
def touchBytes (lost : Bool) (r : TouchRecord) : List Byte :=
  [flagBit 0 lost ||| flagBit 1 r.gap ||| flagBit 2 r.cue.isSome ||| flagBit 3 r.edge
      ||| flagBit 4 r.cancelled,
    byteOf r.port.val, byteOf r.contact.val, byteOf (phaseCode r.phase)]
    ++ halfBytes (halfOf r.x) ++ halfBytes (halfOf r.y) ++ [byteOf r.zone, r.pressure]
    ++ halfBytes (TouchRecord.timestamp r)
    ++ (match r.cue with
        | some d => halfBytes (halfOf d)
        | none => [])

/-- The kind code of a notice. -/
def noticeKind : NoticeBody → Byte
  | .claimState _ _ => Kind.claimState
  | .jobState _ => Kind.jobState
  | .docState _ _ => Kind.docState
  | .scanResult _ => Kind.scanResult
  | .touch _ => Kind.touch
  | .portState _ => Kind.portState
  | .takeState _ _ _ => Kind.takeState
  | .hallState _ _ => Kind.hallState
  | .kioskState _ _ _ _ => Kind.kioskState
  | .checkResult _ _ => Kind.checkResult
  | .saveResult _ => Kind.saveResult
  | .hubState _ _ _ => Kind.hubState
  | .attendant _ => Kind.attendant

/-- The body of a notice, where the spec lays it out. -/
def noticeBytes (i : Item) : Option (List Byte) :=
  match i.body with
  | .claimState p n => some (claimStateBytes i.lost p n)
  | .jobState n => some (jobStateBytes i.lost n)
  | .touch r => some (touchBytes i.lost r)
  | _ => none

/-- The body of a CHUNK as the hub sends it. -/
def chunkBytes (p : PortId) (c : Chunk) : List Byte :=
  [byteOf p.val, c.seq, flagBit 0 c.pageEnd ||| flagBit 1 c.last] ++ c.data

/-- The body of a CREDIT as the hub sends it. -/
def creditBytes (p : PortId) (n : Nat) : List Byte := [byteOf p.val, byteOf n]

/-- A frame on a kiosk or staff link, where the spec lays out its body. -/
def linkFrameOut : LinkFrame → Option Frame
  | .reply r overrun => (replyBytes r.fields).map fun x => ⟨Kind.reply, replyHeader r overrun ++ x⟩
  | .notice i => (noticeBytes i).map fun x => ⟨noticeKind i.body, x⟩
  | .credit p n => some ⟨Kind.credit, creditBytes p n⟩
  | .chunk p c => some ⟨Kind.chunk, chunkBytes p c⟩

/-- The kind code of a command frame. -/
def commandKind : DeviceCommand → Byte
  | .identAsk => Kind.identAsk
  | .powerSet _ => Kind.powerSet
  | .printStart _ _ _ _ => Kind.printStart
  | .printAbort => Kind.printAbort
  | .printHold => Kind.printHold
  | .printResume => Kind.printResume
  | .scanStart _ _ => Kind.scanStart
  | .scanAbort => Kind.scanAbort
  | .testStart _ => Kind.testStart
  | .echo _ => Kind.echo
  | .portClear => Kind.portClear

/-- A frame on a device link, where the spec lays out its body. -/
def deviceFrameOut : DeviceFrame → Option Frame
  | .command _ => none
  | .chunk p c => some ⟨Kind.chunk, chunkBytes p c⟩
  | .credit p n => some ⟨Kind.credit, creditBytes p n⟩

end Sys2Proof.Machine
end

