-- ==== Sys2Proof/Safety.lean ====
section
/-! DEFINITION. What counts as a safe state of the hub: the bounds and the orders that the spec promises of
its pools, lists, queues, tables and streams. And the conditions under which a command is taken, in the terms
that statements use. -/

namespace Sys2Proof.Safety

open Sys2Proof.Machine

/-! ### Invariants -/

/-- Buffers in use, the sender's credit and the owed credit of an open stream add up to 4 (R132), and its
stall deadline is present exactly while it runs (R133, R134). -/
def StreamsBalance (s : State) : Prop :=
  ∀ p x, s.streams.get p = some x →
    x.buffers.length + x.senderCredit + x.owed = Config.buffers ∧ x.stall.isSome = stallRuns x

/-- An outbound queue holds at most 32 items, of which at most 16 are touch records (R136). -/
def QueueFits (q : List Item) : Prop :=
  q.length ≤ Config.queueItems ∧ touchCount q ≤ Config.queueTouches

/-- Every outbound queue fits (R136). -/
def QueuesFit (s : State) : Prop := ∀ l, QueueFits (s.link l).queue

/-- A claim list's order: nobody behind the head is holder, the waiters stand in ascending order of class, and
no kiosk stands twice (R3). -/
def ListOrdered (l : List Claim) : Prop :=
  (∀ c ∈ l.tail, c.role = .waiter) ∧ (waitersOf l).Pairwise (fun a b => a.cls ≤ b.cls)
    ∧ (l.map (·.kiosk)).Nodup

/-- Every claim list is ordered, and the pool's bounds hold (R1, R3). -/
def ClaimsOrdered (s : State) : Prop :=
  (∀ p, ListOrdered (s.claims.get p)) ∧ s.claimCount ≤ Config.claimPool
    ∧ ∀ k, s.kioskClaims k ≤ Config.claimsPerKiosk

/-- The job pool's bounds hold, and a job stands in a queue exactly while its state is QUEUED
(R43, R48). -/
def JobsBounded (s : State) : Prop :=
  s.jobCount ≤ Config.jobPool ∧ (∀ k, s.kioskJobs k ≤ Config.jobsPerKiosk)
    ∧ (∀ p, ∀ j ∈ (s.printers.get p).queue, j.state = .queued)
    ∧ ∀ p j, (s.printers.get p).inflight = some j → j.state ≠ .queued

/-- A contact table holds at most 10 entries, and no two share an id (R100). -/
def ContactsBounded (s : State) : Prop :=
  ∀ p, (s.panels.get p).contacts.length ≤ Config.contacts
    ∧ ((s.panels.get p).contacts.map (·.id)).Nodup

/-- While the hall is QUIET both pools are empty and no kiosk scan is in flight (R41). -/
def QuietIsEmpty (s : State) : Prop :=
  s.hall = .quiet → s.claimCount = 0 ∧ s.jobCount = 0 ∧ s.counts.scans = 0

/-- The next id and every live job's id lie in 1 to 4095, and no two live jobs share an id (R45). -/
def JobIdsUnique (s : State) : Prop :=
  (1 ≤ s.nextJob ∧ s.nextJob ≤ 4095)
    ∧ (∀ p, ∀ j ∈ Printer.jobs (s.printers.get p), 1 ≤ j.id ∧ j.id ≤ 4095)
    ∧ ((allPorts.flatMap fun p => Printer.jobs (s.printers.get p)).map (·.id)).Nodup

/-- A holder's idle deadline is absent while it is frozen, and a waiter has none (R11, R13). -/
def DeadlinesFrozen (s : State) : Prop :=
  ∀ p, ∀ c ∈ s.claims.get p, c.role = .waiter ∨ s.frozen p c = true → c.deadline = none

/-- A kiosk whose link is DOWN has no claim, no queued job, no vote, no stream and no LIVE contact, nothing
waits on its link, and its work in flight is being aborted (R20, R65, R87, R107, R135, R166, R176). -/
def AwayHasNothing (s : State) : Prop :=
  ∀ k, (s.kiosks.get k).up = false →
    (s.kiosks.get k).queue = [] ∧ (s.kiosks.get k).reply = none ∧ (s.kiosks.get k).sending = none
      ∧ (s.kiosks.get k).outstanding = false
      ∧ ∀ p, claimOf (s.claims.get p) k = none ∧ (∀ j ∈ (s.printers.get p).queue, j.kiosk ≠ k)
        ∧ (∀ j, (s.printers.get p).inflight = some j → j.kiosk = k → j.abortSent = true)
        ∧ (∀ x, (s.scanners.get p).scan = some x → x.requester = .kiosk k → x.abortSent = true)
        ∧ (s.power.get p).votes.get k = none
        ∧ (∀ x, s.streams.get p = some x → x.partner ≠ .kiosk k)
        ∧ ∀ c ∈ (s.panels.get p).contacts, c.dest = .link (.kiosk k) → c.live = false

/-- Every scan in flight, a staff scan too, stands on a port of class SCANNER (R76, R77, R146, R186). -/
def ScansOnScanners (s : State) : Prop :=
  ∀ p, (s.scanners.get p).scan ≠ none → s.cls p = .scanner

/-- Scans stand on scanners, a kiosk scan that is not being aborted on one that its kiosk holds, an ABSENT port
has no scan, and during the start-up read every port is ABSENT (R76, R87, R88, R187). -/
def ScansOwned (s : State) : Prop :=
  (s.loader.starting = true → ∀ p, s.cond p = .absent)
    ∧ (∀ p, s.cond p = .absent → (s.scanners.get p).scan = none) ∧ ScansOnScanners s
    ∧ ∀ p x k, (s.scanners.get p).scan = some x → x.requester = .kiosk k → x.abortSent = false →
        s.holder p = some k

/-- The settings in force lie in the ranges of their rules (R94, R124, R146, R163). -/
def SettingsHeldInRange (s : State) : Prop := s.settings.inRange = true

/-- All of them. -/
def Safe (s : State) : Prop :=
  StreamsBalance s ∧ QueuesFit s ∧ ContactsBounded s ∧ ClaimsOrdered s ∧ DeadlinesFrozen s
    ∧ JobsBounded s ∧ JobIdsUnique s ∧ QuietIsEmpty s ∧ ScansOwned s ∧ AwayHasNothing s
    ∧ SettingsHeldInRange s

/-! ### Parts of the state, and frames -/

/-- The parts of the state that a frame names. -/
inductive Part where
  /-- the tick counter -/
  | time
  /-- the cue line's level -/
  | cueLine
  | claims (p : PortId)
  | takeover (p : PortId)
  | hall
  | printer (p : PortId)
  | nextJob
  | scanner (p : PortId)
  /-- calibration, routes and sequence configuration -/
  | panelSettings (p : PortId)
  | sequence (p : PortId)
  | cue (p : PortId)
  | contacts (p : PortId)
  | cueEdge
  | stream (p : PortId)
  /-- a link unit's state, silence timer, request outstanding and receiver -/
  | unit (l : LinkId)
  | overrun (l : LinkId)
  /-- the reply slot -/
  | slot (l : LinkId)
  /-- the outbound queue with its gap flag -/
  | queue (l : LinkId)
  | transmitter (l : LinkId)
  | profile (k : KioskId)
  | config (p : PortId)
  /-- a port's condition with its cause, outstanding fault, identity and mismatch flag -/
  | condition (p : PortId)
  /-- the waits and the response timer -/
  | waits (p : PortId)
  /-- the adapter-silence and clear-spacing timers -/
  | timers (p : PortId)
  /-- the check record -/
  | check (p : PortId)
  | limits (p : PortId)
  | votes (p : PortId)
  /-- the target, the reached level and the transition in flight -/
  | level (p : PortId)
  /-- the command frames that wait for a device link -/
  | commands (p : PortId)
  | deviceTransmitter (p : PortId)
  | deviceReceiver (p : PortId)
  | loader
  | draws
  | pending
  deriving DecidableEq, Repr

/-- A part is the same in two states. -/
def Part.same (x : Part) (s t : State) : Prop :=
  match x with
  | .time => t.tick = s.tick
  | .cueLine => t.cueLevel = s.cueLevel
  | .claims p => t.claims.get p = s.claims.get p
  | .takeover p => t.takes.get p = s.takes.get p
  | .hall => t.hall = s.hall
  | .printer p => t.printers.get p = s.printers.get p
  | .nextJob => t.nextJob = s.nextJob
  | .scanner p => t.scanners.get p = s.scanners.get p
  | .panelSettings p =>
    (t.panels.get p).calibration = (s.panels.get p).calibration
      ∧ (t.panels.get p).routes = (s.panels.get p).routes ∧ (t.panels.get p).seq = (s.panels.get p).seq
  | .sequence p => (t.panels.get p).seqState = (s.panels.get p).seqState
  | .cue p => (t.panels.get p).cue = (s.panels.get p).cue
  | .contacts p => (t.panels.get p).contacts = (s.panels.get p).contacts
  | .cueEdge => t.cueEdge = s.cueEdge
  | .stream p => t.streams.get p = s.streams.get p
  | .unit l =>
    (t.link l).up = (s.link l).up ∧ (t.link l).silence = (s.link l).silence
      ∧ (t.link l).outstanding = (s.link l).outstanding ∧ (t.link l).rx = (s.link l).rx
  | .overrun l => (t.link l).overrun = (s.link l).overrun
  | .slot l => (t.link l).reply = (s.link l).reply
  | .queue l => (t.link l).queue = (s.link l).queue ∧ (t.link l).gap = (s.link l).gap
  | .transmitter l =>
    (t.link l).turn = (s.link l).turn ∧ (t.link l).lastPort = (s.link l).lastPort
      ∧ (t.link l).sending = (s.link l).sending
  | .profile k => t.profiles.get k = s.profiles.get k
  | .config p => t.configs.get p = s.configs.get p
  | .condition p =>
    t.cond p = s.cond p ∧ (t.ctls.get p).cause = (s.ctls.get p).cause
      ∧ (t.ctls.get p).fault = (s.ctls.get p).fault ∧ (t.ctls.get p).identity = (s.ctls.get p).identity
      ∧ (t.ctls.get p).mismatch = (s.ctls.get p).mismatch
  | .waits p =>
    (t.ctls.get p).waits = (s.ctls.get p).waits ∧ (t.ctls.get p).response = (s.ctls.get p).response
  | .timers p =>
    (t.ctls.get p).silence = (s.ctls.get p).silence
      ∧ (t.ctls.get p).clearSpacing = (s.ctls.get p).clearSpacing
  | .check p => (t.ctls.get p).check = (s.ctls.get p).check
  | .limits p =>
    (t.power.get p).floor = (s.power.get p).floor ∧ (t.power.get p).ceiling = (s.power.get p).ceiling
  | .votes p => (t.power.get p).votes = (s.power.get p).votes
  | .level p =>
    (t.power.get p).target = (s.power.get p).target ∧ (t.power.get p).reached = (s.power.get p).reached
      ∧ (t.power.get p).moving = (s.power.get p).moving
  | .commands p => (t.wires.get p).commands = (s.wires.get p).commands
  | .deviceTransmitter p => (t.wires.get p).sending = (s.wires.get p).sending
  | .deviceReceiver p => (t.wires.get p).rx = (s.wires.get p).rx
  | .loader => t.loader = s.loader
  | .draws => t.draws = s.draws
  | .pending => t.pending = s.pending

/-- Of two states, the second differs from the first in some parts at most. -/
def Only (may : Part → Prop) (s t : State) : Prop := ∀ x, may x ∨ Part.same x s t

/-- The parts of a list. -/
def these (l : List Part) (x : Part) : Prop := x ∈ l

/-- What handing notices to some links may change: their queues, and the contacts whose DOWN was dropped from
a full queue to make room, which become ORPHAN (R141, R142). -/
def told (tell : LinkId → Prop) (x : Part) : Prop :=
  (∃ l, x = .queue l ∧ tell l) ∨ ∃ p, x = .contacts p

/-- The parts of a list, and what handing notices to some links may change. -/
def theseTold (l : List Part) (tell : LinkId → Prop) (x : Part) : Prop := x ∈ l ∨ told tell x

/-- A notice was handed to a link: if the link is UP, its queue holds it (R136). -/
def Queued (l : LinkId) (b : NoticeBody) (s : State) : Prop :=
  (s.link l).up = true → ∃ i ∈ (s.link l).queue, i.body = b

/-- The reply in a link's slot. -/
def Replies (l : LinkId) (kind : Byte) (code : ResultCode) (fields : ReplyFields) (s : State) : Prop :=
  (s.link l).reply = some ⟨kind, code, fields⟩

/-- What every request that is taken on a link changes: the link unit and the reply slot. -/
def asked (l : LinkId) : List Part := [.unit l, .slot l]

/-- What every adapter frame that is taken changes: the receiver, the silence timer and the response timer. -/
def heard (p : PortId) : List Part := [.deviceReceiver p, .timers p, .waits p]

/-! ### When a command is taken -/

/-- The link takes a request: the start-up read is over, the link is UP and none is outstanding (R172, R177,
R187). -/
def Listens (l : LinkId) (s : State) : Prop :=
  s.loader.starting = false ∧ (s.link l).up = true ∧ (s.link l).outstanding = false

/-- What the link unit does with a request that it takes: the silence timer is reloaded, and the request is
outstanding (R175, R177). -/
def linkTakes (l : LinkId) (s : State) : State :=
  onLink l (fun u =>
    { u with rx := [], silence := some (after s.tick silenceTicks), outstanding := true }) s

/-- The common checks of a kiosk's request for a port pass but for admission (R178 steps 4 to 6). -/
def Reaches (k : KioskId) (p : PortId) (suits : PortClass → Bool) (s : State) : Prop :=
  s.cls p ≠ .unused ∧ inReach (s.profiles.get k) p = true ∧ suits (s.cls p) = true

/-- The common checks of a kiosk's request for a port pass (R178). -/
def MayUse (k : KioskId) (p : PortId) (suits : PortClass → Bool) (s : State) : Prop :=
  (s.profiles.get k).admitted = true ∧ Reaches k p suits s

/-- The port's adapter is heard outside ABSENT and UNRESPONSIVE (R152, R187). -/
def Attends (p : PortId) (s : State) : Prop :=
  s.loader.starting = false ∧ s.cond p ≠ .absent ∧ s.cond p ≠ .unresponsive

/-- What the Port Controller does with any adapter frame that it takes: a sign of life, and the end of the
waits that the frame answers (R152, R155). -/
def portHears (p : PortId) (answers : List Wait) (s : State) : State :=
  signOfLife p answers (onWire p (fun w => { w with rx := [] }) s)

/-- A frame about the work of an adapter, the port that it comes from, and the waits that it ends: none on a
port of another class (R152, R153, R155). -/
def workFrame (s : State) : Instr → Option (PortId × List Wait)
  | .printAccept p _ => some (p, if s.cls p = .printer then [.printStart] else [])
  | .progress p _ => some (p, [])
  | .held p => some (p, if s.cls p = .printer then [.printHold] else [])
  | .printEnd p _ _ => some (p, if s.cls p = .printer then [.printStart, .printAbort, .printHold] else [])
  | .fault p _ => some (p, [])
  | .cleared p => some (p, [])
  | .scanAccept p => some (p, if s.cls p = .scanner then [.scanStart] else [])
  | .scanCode p _ _ => some (p, [])
  | .scanEnd p _ _ => some (p, if s.cls p = .scanner then [.scanStart, .scanAbort] else [])
  | .docSense p _ => some (p, [])
  | .touchDown p _ => some (p, [])
  | .touchMove p _ => some (p, [])
  | .touchUp p _ => some (p, [])
  | .chunk (.device p) _ => some (p, [])
  | .adapterCredit p _ => some (p, [])
  | .powerDone p _ => some (p, [.powerSet])
  | .echo p _ => some (p, [.echo])
  | .testResult p _ => some (p, [.testStart])
  | _ => none

/-- The waits of a port that hold once a frame has ended those that it answers (R155). -/
def waitsLeft (s : State) (p : PortId) (answers : List Wait) : List Wait :=
  (s.ctls.get p).waits.filter fun w => decide (w ∉ answers)

/-! ### Claims, as statements speak of them -/

/-- A kiosk's own scan is in flight on a port: it freezes the idle deadline of that kiosk's grant (R13). -/
def ownScan (s : State) (p : PortId) (k : KioskId) : Bool :=
  (s.scanners.get p).scan.any fun x => x.requester == .kiosk k

/-- A holder's deadline armed from now (R11), or absent while its own scan freezes it (R13). -/
def armedFor (s : State) (p : PortId) (k : KioskId) : Option Tick :=
  if ownScan s p k || (s.configs.get p).idleS == 0 then none
  else some (after s.tick (seconds (s.configs.get p).idleS))

/-- A waiter's record once it is granted the port (R7). -/
def granted (s : State) (p : PortId) (c : Claim) : Claim :=
  { c with role := .holder, grant := some s.tick, suspended := false, deadline := armedFor s p c.kiosk }

/-- A list without a holder after promotion, where promotion succeeds or not (R18). -/
def promoted (s : State) (p : PortId) (succeeds : Bool) : List Claim → List Claim
  | [] => []
  | c :: l => if succeeds then granted s p c :: l else c :: l

/-- The conditions of promotion beside those on the list (R18). -/
def mayPromote (s : State) (p : PortId) : Bool :=
  (s.takes.get p).state == .free && s.hall == .openHall && s.cond p != .checking

/-- The record that a CLAIM makes, as a waiter's (R2, R5). -/
def claimant (s : State) (k : KioskId) : Claim :=
  { kiosk := k, cls := (s.profiles.get k).cls, arrival := s.tick, role := .waiter, suspended := false
    deadline := none, grant := none, closing := false }

/-- A port's shield deadline is present and not yet reached (R26). -/
def shieldRuns (s : State) (p : PortId) : Bool := (s.takes.get p).shield.any fun d => !reached s.tick d

/-- A duration that 0 switches off: absent, or its end from now. -/
def endOf (s : State) (ticks : Nat) : Option Tick := if ticks = 0 then none else some (after s.tick ticks)

/-- A list of claims with its holder's record changed. -/
def withHolder (f : Claim → Claim) (l : List Claim) : List Claim :=
  l.map fun c => if c.role = .holder then f c else c

/-! ### Jobs, as statements speak of them -/

/-- The value that the next-id counter has after some advances (R45). -/
def idAt (s : State) (i : Nat) : Nat := (s.nextJob + i - 1) % 4095 + 1

/-- The id that the next accepted SUBMIT gets: the first of 65 from the counter's value on that names no live
job (R45). -/
def freshId (s : State) : Nat := (((List.range 65).map (idAt s)).find? fun n => !s.jobLive n).getD 0

/-- The record of an accepted SUBMIT (R44, R47). -/
def submittedJob (s : State) (k : KioskId) (b : SubmitBody) : Job :=
  { id := freshId s, kiosk := k, tag := b.tag, priority := min b.priority.toNat 7
    copies := max 1 (min b.copies.toNat 9), pages := min b.pages.toNat 999
    options := ⟨b.options.getLsbD 0, b.options.getLsbD 1, b.tray.map (·.toNat)⟩, state := .queued
    resume := none, fault := none, holdSent := false, cancelRequested := .no, abortCause := none
    abortSent := false, printed := 0, pageEnds := 0, jams := 0, submitted := s.tick }

/-- What the conditions of a selection demand beside a job in the queue (R49). -/
def maySelect (s : State) (p : PortId) : Bool :=
  (s.printers.get p).inflight.isNone && s.cond p == .serving && s.atReady p
    && (s.takes.get p).state == .free && (s.printers.get p).gap == none

/-- The JOB_STATE of a job in flight in a state without a fault to show, or at an end (R58). -/
def jobTold (p : PortId) (j : Job) (r : JobReport) (byStaff : Bool) : NoticeBody :=
  .jobState { id := j.id, tag := j.tag, port := p, report := r, printed := j.printed, fault := none
              byStaff := byStaff }

/-- The JOB_STATE of a job that PRINT_END ends with an outcome, 0 for DONE, and a count of sheets (R56). -/
def endTold (p : PortId) (j : Job) (outcome : Byte) (sheets : Half) : NoticeBody :=
  jobTold p { j with printed := min 9999 sheets.toNat }
    (.ended
      (if outcome = 0 then (if j.cancelRequested = .no then .done else .doneDespiteCancel)
       else match j.abortCause with
         | some .cancel => .cancelled
         | some .drop => .cancelled
         | some (.failed r) => .failed r
         | none => .failed .device))
    (j.cancelRequested == .staff && (outcome == 0 || j.abortCause == some .cancel
      || j.abortCause == some .drop))

/-! ### Scans, as statements speak of them -/

/-- The record of an accepted SCAN: the resolution clamped into 100 to 600 and rounded down to a multiple of
50, the initial credit clamped into 1 to 4 (R74, R78). -/
def startedScan (s : State) (l : LinkId) (m : ScanMode) (b : ScanBody) : Scan :=
  { requester := l, mode := m, resolution := max 100 (min 600 b.resolution.toNat) / 50 * 50
    credit := max 1 (min 4 b.credit.toNat), state := .starting, abortSent := false, reason := none
    resultGiven := false, code := none, forwarded := 0, reported := none, started := s.tick }

/-- A SCAN_END takes a scan that is not being aborted out of flight at once: every one does but a DONE for an
image scan ENDING, or SCANNING with chunks still buffered (R81, R83, R85). -/
def LeavesNow (s : State) (p : PortId) (x : Scan) (outcome : Byte) : Prop :=
  outcome ≠ 0 ∨ x.mode = .code ∨ x.state = .starting
    ∨ (x.state = .scanning ∧ ∀ y ∈ s.streams.get p, y.buffers = [])

/-- The SCAN_RESULT of a scan that SCAN_END ends with an outcome, 0 for DONE, and the bytes reported (R89). -/
def scanTold (p : PortId) (x : Scan) (outcome : Byte) (sent : BitVec 32) : NoticeBody :=
  .scanResult
    { port := p, reason := if outcome = 0 then none else some .device, mode := x.mode
      code := if outcome = 0 ∧ x.mode = .code then x.code else none
      forwarded := if x.mode = .image then some x.forwarded else none
      reported := if outcome = 0 ∧ x.mode = .image then some sent else none
      started := x.started }

/-- The SCAN_RESULT of a scan that is cut short for a reason (R84, R88, R89). -/
def scanCut (p : PortId) (x : Scan) (r : ScanReason) : NoticeBody :=
  .scanResult
    { port := p, reason := some r, mode := x.mode, code := none
      forwarded := if x.mode = .image then some x.forwarded else none, reported := none
      started := x.started }

/-! ### Touches, as statements speak of them -/

/-- A touch report is accepted, with a contact id (R92, R93). -/
def Accepts (p : PortId) (b : TouchBody) (id : Fin 16) (s : State) : Prop :=
  Attends p s ∧ s.cls p = .panel ∧ s.cond p = .serving ∧ (s.power.get p).reached = some .ready
    ∧ b.contact.toNat = id.val ∧ b.rawX.toNat ≤ 4095 ∧ b.rawY.toNat ≤ 4095

/-- Where the transform with the record in force puts a report (R95 to R98). -/
def touchAt (s : State) (p : PortId) (b : TouchBody) : Position :=
  transform (s.panels.get p).calibration b.rawX.toNat b.rawY.toNat

/-- The entry that a DOWN makes (R101). -/
def pinned (s : State) (p : PortId) (b : TouchBody) (id : Fin 16) (d : Dest) (v : Via) : Contact :=
  { id := id, dest := d, via := v, live := true, downTick := b.arrival, x := (touchAt s p b).x
    y := (touchAt s p b).y, zone := (touchAt s p b).zone, edge := (touchAt s p b).edge }

/-- The cue delay that a record of a report takes on placement (R110). -/
def tagFor (s : State) (p : PortId) (b : TouchBody) : Option Nat :=
  match (s.panels.get p).cue with
  | .absent => none
  | .saturated => some 65535
  | .tick t =>
    if (b.arrival - t).toNat < 2 ^ 31 then some (min 65535 (b.arrival - t).toNat) else none

/-- The record made from a report (R99). -/
def touched (s : State) (p : PortId) (b : TouchBody) (id : Fin 16) (ph : Phase) (cue : Option Nat)
    (gap : Bool) : TouchRecord :=
  { port := p, contact := id, phase := ph, x := (touchAt s p b).x, y := (touchAt s p b).y
    zone := (touchAt s p b).zone, pressure := b.pressure, stamp := b.arrival
    edge := (touchAt s p b).edge, cancelled := false, cue := cue, gap := gap }

/-- The cue that stays pending after a record of a report was placed or coalesced (R110). -/
def cueLeft (s : State) (p : PortId) (b : TouchBody) : PendingCue :=
  if (tagFor s p b).isSome then .absent else (s.panels.get p).cue

/-- The first enabled entry that matches a zone, tried in order of index, decides the action; when none
matches, the action is HOLDER (R113). -/
def Decides (t : Table RouteEntry 16) (zone : Nat) (a : RouteAction) : Prop :=
  (∃ i, (t.get i).enabled = true ∧ routeMatches (t.get i) zone = true ∧ (t.get i).action = a
      ∧ ∀ j, j < i → (t.get j).enabled = true → routeMatches (t.get j) zone = false)
    ∨ (a = .holder ∧ ∀ i, (t.get i).enabled = true → routeMatches (t.get i) zone = false)

/-- The action HOLDER sends a contact to a destination via a value: to STAFF in STAFF_HOLD, else to the
holder, else to an idle destination that is UP and admitted, else to DROP (R114). -/
def HolderLeads (s : State) (p : PortId) (d : Dest) (v : Via) : Prop :=
  ((s.takes.get p).state = .staffHold ∧ d = .link .staff ∧ v = .holder)
    ∨ ((s.takes.get p).state ≠ .staffHold ∧ ∃ k, s.holder p = some k ∧ d = .link (.kiosk k) ∧ v = .holder)
    ∨ ((s.takes.get p).state ≠ .staffHold ∧ s.holder p = none ∧ ∃ k, (s.configs.get p).idleDest = some k
      ∧ (s.kiosks.get k).up = true ∧ (s.profiles.get k).admitted = true ∧ d = .link (.kiosk k) ∧ v = .idle)
    ∨ ((s.takes.get p).state ≠ .staffHold ∧ s.holder p = none
      ∧ (∀ k, (s.configs.get p).idleDest = some k → (s.kiosks.get k).up = true →
        (s.profiles.get k).admitted = false) ∧ d = .drop ∧ v = .neither)

/-- An action sends a contact to a destination via a value, and raises nothing on the way: HOLDER, KIOSK,
DROP, and SEQ_A and SEQ_B under a trigger that is OFF (R114, R115, R117). -/
def Leads (s : State) (p : PortId) (d : Dest) (v : Via) : RouteAction → Prop
  | .holder => HolderLeads s p d v
  | .kiosk k =>
    v = .neither ∧ d = if (s.kiosks.get k).up = true ∧ (s.profiles.get k).admitted = true then
      .link (.kiosk k) else .drop
  | .staff => False
  | .drop => d = .drop ∧ v = .neither
  | .seqA => (s.panels.get p).seqState = .off ∧ HolderLeads s p d v
  | .seqB => (s.panels.get p).seqState = .off ∧ HolderLeads s p d v

/-- The contact table once a report gave a contact its last record (R102). -/
def lastSeen (s : State) (p : PortId) (b : TouchBody) (id : Fin 16) : List Contact :=
  (s.panels.get p).contacts.map fun d => if d.id = id then
    { d with x := (touchAt s p b).x, y := (touchAt s p b).y, zone := (touchAt s p b).zone
             edge := (touchAt s p b).edge } else d

/-- The item is a touch record of a contact (R140). -/
def TouchOf (p : PortId) (id : Fin 16) (i : Item) : Prop :=
  ∃ o, Item.touch? i = some o ∧ o.port = p ∧ o.contact = id

/-- The most recent record of a contact in a queue, if there is one, is no MOVE (R140). -/
def NoMoveWaits (p : PortId) (id : Fin 16) (q : List Item) : Prop :=
  ∀ (n : Nat) (i : Item) (o : TouchRecord), q[n]? = some i → Item.touch? i = some o → o.port = p →
    o.contact = id → (∀ z ∈ q.drop (n + 1), ¬ TouchOf p id z) → o.phase ≠ .move

/-- A queue has room for one more touch record (R141). -/
def HasRoom (l : LinkId) (s : State) : Prop :=
  (s.link l).queue.length < 32 ∧ touchCount (s.link l).queue < 16

/-- The claim list after activity of the holder (R12), which does nothing for another kiosk. -/
def afterActivity (s : State) (p : PortId) (l : LinkId) : List Claim :=
  if (s.holder p).map LinkId.kiosk = some l then
    withHolder (fun c => { c with deadline := if c.suspended then none else armedFor s p c.kiosk })
      (s.claims.get p)
  else s.claims.get p

/-! ### Panel settings, as statements speak of them -/

/-- CALIBRATE accepts a body: the edges in order and at most 4095, W and H 1 to 8192, C and G 1 to 16
(R95). -/
def CalibrateFits (b : CalibrateBody) : Prop :=
  b.xMin.toNat < b.xMax.toNat ∧ b.yMin.toNat < b.yMax.toNat ∧ b.xMax.toNat ≤ 4095 ∧ b.yMax.toNat ≤ 4095
    ∧ (1 ≤ b.width.toNat ∧ b.width.toNat ≤ 8192) ∧ (1 ≤ b.height.toNat ∧ b.height.toNat ≤ 8192)
    ∧ (1 ≤ b.cols.toNat ∧ b.cols.toNat ≤ 16) ∧ (1 ≤ b.rows.toNat ∧ b.rows.toNat ≤ 16)

/-- The record that a CALIBRATE carries (R94). -/
def calibrationSent (b : CalibrateBody) : Calibration :=
  { xMin := b.xMin.toNat, xMax := b.xMax.toNat, yMin := b.yMin.toNat, yMax := b.yMax.toNat
    swap := b.flags.getLsbD 0, invertX := b.flags.getLsbD 1, invertY := b.flags.getLsbD 2
    width := b.width.toNat, height := b.height.toNat, cols := b.cols.toNat, rows := b.rows.toNat }

/-- The type in a route entry's control byte. -/
def typeSent (b : RouteSetBody) : Nat := b.control.toNat / 2 % 4

/-- The action in a route entry's control byte. -/
def actionSent (b : RouteSetBody) : Nat := b.control.toNat / 8 % 8

/-- ROUTE_SET accepts a body: an index to 15, a type of the three, an action of the six, and for KIOSK a
kiosk present and at most 23 (R118). -/
def RouteFits (b : RouteSetBody) : Prop :=
  b.index.toNat ≤ 15 ∧ typeSent b ≤ 2 ∧ actionSent b ≤ 5
    ∧ (actionSent b = 1 → b.control.getLsbD 6 = true ∧ b.kiosk.toNat ≤ 23)

/-- The entry that a ROUTE_SET carries, with a kiosk for action KIOSK only (R111, R118). -/
def RouteSent (b : RouteSetBody) (e : RouteEntry) : Prop :=
  e.enabled = b.control.getLsbD 0 ∧ e.z1 = b.z1 ∧ e.z2 = b.z2 ∧ routeKindCode e.kind = typeSent b
    ∧ routeActionCode e.action = actionSent b
    ∧ (routeKiosk e.action).map (·.val) = if actionSent b = 1 then some b.kiosk.toNat else none

/-! ### Streams and links, as statements speak of them -/

/-- A link takes valid frames: the start-up read is over and the link is UP (R172, R187). -/
def Hears (l : LinkId) (s : State) : Prop := s.loader.starting = false ∧ (s.link l).up = true

/-- A stream that has accepted a chunk, but for its stall deadline (R128). -/
def fed (c : Chunk) (x : Stream) : Stream :=
  { x with
    buffers := x.buffers ++ [c], senderCredit := x.senderCredit - 1, expected := x.expected + 1
    sourceEnded := x.direction == .pull && c.last }

/-- The reply whose frame a link's transmitter is sending. -/
def replySending (s : State) (l : LinkId) : Option Reply :=
  match (s.link l).sending with
  | some (.reply r _) => some r
  | _ => none

/-- A stream has a CREDIT ready for its partner's link (R132, R143). -/
def CreditReady (l : LinkId) (x : Stream) : Prop :=
  x.direction = .pull ∧ x.partner = l ∧ 0 < x.owed ∧ x.sourceEnded = false

/-- A stream has a CHUNK ready for its partner's link (R131, R143). -/
def ChunkReady (l : LinkId) (x : Stream) : Prop :=
  x.direction = .push ∧ x.partner = l ∧ x.buffers ≠ [] ∧ 0 < x.sinkCredit

/-- No stream has a frame ready for a link. -/
def NoStreamReady (l : LinkId) (s : State) : Prop :=
  ∀ p x, s.streams.get p = some x → ¬ CreditReady l x ∧ ¬ ChunkReady l x

/-- Of the streams with a frame ready for a link, none stands on a port that comes before `p` in the round
that begins behind the last port served (R143). -/
def FirstInRound (l : LinkId) (p : PortId) (s : State) : Prop :=
  ∀ q x, s.streams.get q = some x → CreditReady l x ∨ ChunkReady l x →
    (p.val + 11 - (s.link l).lastPort.val) % 12 ≤ (q.val + 11 - (s.link l).lastPort.val) % 12

/-- An idle transmitter of an UP link without a reply has come to its streams: it is their turn, or no item
is queued (R143). -/
def TurnOfStreams (l : LinkId) (s : State) : Prop :=
  (s.link l).up = true ∧ (s.link l).sending = none ∧ (s.link l).reply = none
    ∧ ((s.link l).turn = .streams ∨ (s.link l).queue = [])

/-- The claims of a scanner port once a scan has left flight: the idle deadline of a holder that is the scan's
requester is armed again (R13, R80). -/
def afterScan (s : State) (p : PortId) (x : Scan) : List Claim :=
  if (s.holder p).map LinkId.kiosk = some x.requester then
    withHolder (fun c => { c with deadline :=
      if c.suspended then none else endOf s (seconds (s.configs.get p).idleS) }) (s.claims.get p)
  else s.claims.get p

/-- Nothing waits for a scan to leave flight: no take, and no holder marked closing (R29, R38). -/
def NobodyWaits (s : State) (p : PortId) : Prop :=
  (∀ c, holderOf (s.claims.get p) = some c → c.closing = false)
    ∧ ∀ h, (s.takes.get p).state ≠ .pending .scan h

/-- A stall deadline set now (R133, R134). -/
def stallEnd (s : State) (p : PortId) : Tick := after s.tick (seconds (s.configs.get p).stallS)

/-! ### Ports, as statements speak of them -/

/-- A queue holds so few items that the few notices of one event cannot push one another out. -/
def HasSlack (l : LinkId) (s : State) : Prop := (s.link l).queue.length ≤ 24

/-- Nothing keeps a port from changing its class (R146). -/
def ClassFree (p : PortId) (s : State) : Prop :=
  s.claims.get p = [] ∧ (s.printers.get p).queue = [] ∧ (s.printers.get p).inflight = none
    ∧ (s.scanners.get p).scan = none ∧ (s.ctls.get p).check.status ≠ .running
    ∧ (s.takes.get p).state = .free

/-- A PORT_SET's body stores a configuration: each value of a set is in its set, and each number is clamped
into its range and rounded down to the step of its unit (R145, R146). -/
def Stores (b : PortSetBody) (c : PortConfig) : Prop :=
  classOf b.cls = some c.cls ∧ queueModeOf b.queueMode = some c.queueMode
    ∧ yesNoOf b.autoResume = some c.autoResume ∧ yesNoOf b.cueEnable = some c.cueEnable
    ∧ c.responseMs = max 10 (min 2550 b.responseMs.toNat) / 10 * 10
    ∧ c.wakeS = max 1 (min 120 b.wakeS.toNat) ∧ c.idleS = min 3600 b.idleS.toNat
    ∧ c.shieldS = min 60 b.shieldS.toNat ∧ c.jamLimit = min 7 b.jamLimit.toNat
    ∧ c.gapMs = min 25500 b.gapMs.toNat / 100 * 100 ∧ c.stallS = max 1 (min 60 b.stallS.toNat)
    ∧ c.idleDest.map (·.val) = (if b.flags.getLsbD 0 then some b.idleDest.toNat else none)

/-- The pending cue of a port after a PORT_SET that stores a configuration (R108). -/
def cueAfterSet (s : State) (p : PortId) (c : PortConfig) : PendingCue :=
  if (s.configs.get p).cueEnable = true ∧ c.cueEnable = false then .absent else (s.panels.get p).cue

/-- The state of a port's trigger after a PORT_SET that changes the class (R120). -/
def triggerAfterSet (s : State) (p : PortId) (c : PortConfig) : SeqState :=
  if c.cls = .panel then (if (s.panels.get p).seq.armed then .waitA else .off)
  else if s.cls p = .panel then .off else (s.panels.get p).seqState

/-- The longest of some waits in ticks: the wake timeout for POWER_SET, the check's duration and the response
time for TEST_START, and the response time for any other (R155). -/
def longestOf (s : State) (p : PortId) (ws : List Wait) : Nat :=
  (ws.map fun w => match w with
    | .powerSet => (s.configs.get p).wakeS * 10000
    | .testStart => (s.ctls.get p).check.duration.getD 0 * 10000 + (s.configs.get p).responseMs * 10
    | _ => (s.configs.get p).responseMs * 10).foldl max 0

/-- The check record of a port that leaves CHECKING before its check has ended (R161). -/
def brokenCheck (s : State) (p : PortId) : CheckRecord :=
  if (s.ctls.get p).check.status = .running then
    { (s.ctls.get p).check with status := .error, step := none, ended := some s.tick }
  else (s.ctls.get p).check

/-- The gap deadline after the job in flight, if there is one, has ended (R51). -/
def gapAfterJob (s : State) (p : PortId) : Option Tick :=
  if (s.printers.get p).inflight.isSome then endOf s ((s.configs.get p).gapMs * 10)
  else (s.printers.get p).gap

/-- The JOB_STATE of a job in flight that its port's condition ends: as its abort cause gives, or FAILED with
a reason when no abort was sent (R67 to R69). -/
def stoppedJob (p : PortId) (j : Job) (r : FailReason) : NoticeBody :=
  match j.abortCause with
  | none => jobTold p j (.ended (.failed r)) false
  | some (.failed x) => jobTold p j (.ended (.failed x)) false
  | some _ => jobTold p j (.ended .cancelled) (j.cancelRequested == .staff)

/-- The PORT_STATE of a port whose condition has changed; the fault it shows, the identity and the class
reported are given. -/
def portTold (s : State) (p : PortId) (c : Condition) (cause : PortCause) (f : Option FaultKind)
    (i : Option Identity) (reported : Option Byte) : NoticeBody :=
  .portState { port := p, cls := s.cls p, cond := c, before := s.cond p, cause := cause, fault := f
               identity := i, reportedClass := reported }

/-! ### Settings, as statements speak of them -/

/-- The settings in force are these, record by record (R184). -/
def Holds (x : Settings) (s : State) : Prop :=
  (∀ k, s.profiles.get k = x.profiles.get k) ∧ s.cueEdge = x.cueEdge
    ∧ ∀ p, s.configs.get p = x.configs.get p ∧ (s.power.get p).floor = (x.limits.get p).floor
      ∧ (s.power.get p).ceiling = (x.limits.get p).ceiling
      ∧ (s.panels.get p).calibration = x.calibrations.get p ∧ (s.panels.get p).routes = x.routes.get p
      ∧ (s.panels.get p).seq = x.sequences.get p

/-- The bytes that a read finds; none when the memory does not answer. -/
def answered (s : State) : MemoryAnswer → Option (List Byte)
  | .silent => none
  | .held => some s.loader.memory
  | .bytes image => some image

/-- An image is valid: its format number is 1, its length is the one this part writes, and its check word is
the one computed over every byte that follows the header (R184). -/
def ImageValid (i : List Byte) : Prop :=
  memoryAt i 0 = 1 ∧ half (memoryAt i 1) (memoryAt i 2) = 1362
    ∧ half (memoryAt i 3) (memoryAt i 4) = checkWord ((List.range' 5 1357).map (memoryAt i))

/-- What a write that did not end well can leave: the old contents, the new image over them, or a mixture
of the two, byte by byte, whose format number is 1 and which is not valid (R184, R185). -/
def CanRemain (old new left : List Byte) : Prop :=
  left = old ∨ left = new ++ old.drop new.length
    ∨ (memoryAt left 0 = 1 ∧ ¬ ImageValid left
      ∧ ∀ i, memoryAt left i = memoryAt old i ∨ (i < new.length ∧ memoryAt left i = memoryAt new i))

/-- The trigger's state after a reset or a LOAD: WAIT_A for an armed panel, and else OFF (R120). -/
def triggerSet (s : State) (p : PortId) : SeqState :=
  if s.cls p = .panel ∧ (s.panels.get p).seq.armed = true then .waitA else .off

/-! ### Link units, as statements speak of them -/

/-- A link unit and its delivery queue after the link has gone DOWN (R136, R143, R176). -/
def WentDown (l : LinkId) (t : State) : Prop :=
  (t.link l).up = false ∧ (t.link l).silence = none ∧ (t.link l).outstanding = false
    ∧ (t.link l).overrun = false ∧ (t.link l).reply = none ∧ (t.link l).queue = []
    ∧ (t.link l).gap = false ∧ (t.link l).sending = none ∧ (t.link l).rx = []

/-- The parts of a link. -/
def linkParts (l : LinkId) : List Part := [.unit l, .overrun l, .slot l, .queue l, .transmitter l]

/-- What a kiosk's departure leaves of its work on a port, and of the others' there (R20, R65, R107, R135,
R166). -/
def Departed (k : KioskId) (p : PortId) (s t : State) : Prop :=
  (t.claims.get p).map (·.kiosk) = ((s.claims.get p).map (·.kiosk)).filter (· ≠ k)
    ∧ (t.printers.get p).queue = (s.printers.get p).queue.filter (fun j => j.kiosk ≠ k)
    ∧ (∀ j, (s.printers.get p).inflight = some j → (t.printers.get p).inflight = some
        (if j.kiosk = k ∧ j.abortSent = false then
          { j with abortCause := some (.failed .kioskLost), abortSent := true } else j))
    ∧ (t.power.get p).votes.get k = none
    ∧ (∀ i, i ≠ k → (t.power.get p).votes.get i = (s.power.get p).votes.get i)
    ∧ (∀ x, t.streams.get p = some x → x.partner ≠ .kiosk k)
    ∧ ∀ c ∈ (t.panels.get p).contacts, c.dest = .link (.kiosk k) → c.live = false

/-- A kiosk's departure pushes no notice out of the staff queue again: no scan of the kiosk is in flight, whose
end could complete a take on each port, or the queue has the places that these TAKE_STATEs need. -/
def StaffKeeps (k : KioskId) (s : State) : Prop :=
  (∀ p x, (s.scanners.get p).scan = some x → x.requester ≠ .kiosk k) ∨ s.staff.queue.length ≤ 19

/-- What a kiosk's departure may change. -/
def departing (k : KioskId) (x : Part) : Prop :=
  x ∈ linkParts (.kiosk k) ∨ (∃ p, x ∈ [.claims p, .takeover p, .printer p, .scanner p, .stream p, .votes p,
    .waits p, .commands p]) ∨ told (fun _ => True) x

/-- The link on which a command is a request; none for HELLO, for the frames that are no requests and for the
commands that are no frames of a kiosk or staff link (R172). -/
def requestOn : Instr → Option LinkId
  | .bye l _ => some l
  | .claim k _ => some (.kiosk k)
  | .release k _ => some (.kiosk k)
  | .claimQuery k _ => some (.kiosk k)
  | .submit k _ => some (.kiosk k)
  | .cancel k _ => some (.kiosk k)
  | .jobQuery k _ => some (.kiosk k)
  | .scan k _ => some (.kiosk k)
  | .scanStop k _ => some (.kiosk k)
  | .vote k _ => some (.kiosk k)
  | .portQuery l _ => some l
  | .staffScan _ => some .staff
  | .staffScanStop _ => some .staff
  | .setAdmission _ => some .staff
  | .profileSet _ => some .staff
  | .kioskQuery _ => some .staff
  | .kioskDrop _ => some .staff
  | .portSet _ => some .staff
  | .calibrate _ => some .staff
  | .routeSet _ => some .staff
  | .routeQuery _ => some .staff
  | .seqSet _ => some .staff
  | .seqQuery _ => some .staff
  | .cueSet _ => some .staff
  | .take _ => some .staff
  | .giveBack _ => some .staff
  | .closeHall _ => some .staff
  | .openHall _ => some .staff
  | .limit _ => some .staff
  | .portReset _ => some .staff
  | .check _ => some .staff
  | .jobDrop _ => some .staff
  | .queueList _ => some .staff
  | .claimList _ => some .staff
  | .save _ => some .staff
  | .load _ => some .staff
  | .hubReset _ => some .staff
  | .hubIdent _ => some .staff
  | .unknownKind l _ => some l
  | _ => none

end Sys2Proof.Safety
end

