-- ==== Sys2Proof/Certificates/Slice0/Obligations.lean ====
section
/-! DEFINITION. The statements for the provers. Each says in its title what it states; `Only` and the parts it
names give the frame, and the state after a command is `finish` of the state that the command itself leaves:
the end of the event and the transmitters that take what became ready (logs 5 to 7). -/

open Sys2Proof Sys2Proof.Machine Sys2Proof.Safety

/-- A CLAIM that passes every check on a free port without a holder is granted at once
(01_claims_and_grants.md, Claiming, 01_claims_and_grants.md, The grant, 01_claims_and_grants.md, Idle
expiry, 04_scanning.md, The document sensor). For a listening, admitted kiosk that reaches a scanner or
panel port which is not ABSENT, not CHECKING, in takeover state NONE and without a holder, in an OPEN hall,
with fewer than 4 records of its own and fewer than 48 in use, CLAIM completes: the record stands at the
head as holder with the current tick as arrival and grant and the idle deadline armed, the reply is OK
HOLDING, a scanner's new holder is handed DOC_STATE, and nothing else changes but queues and contacts that
the change of holder touches. -/
def Obligations.ClaimGrantedAtOnce : Prop :=
  ∀ (k : KioskId) (p : PortId) (b : Byte) (s : State),
    portOf b = some p → Listens (.kiosk k) s → MayUse k p claimable s → s.hall = .openHall →
    s.cond p ≠ .absent → s.cond p ≠ .checking → claimOf (s.claims.get p) k = none →
    s.kioskClaims k < 4 → s.claimCount < 48 → holderOf (s.claims.get p) = none →
    (s.takes.get p).state = .free →
    ∃ t, exec (.claim k (.fields b)) s = .next (finish s t)
      ∧ t.claims.get p = granted s p (claimant s k) :: s.claims.get p
      ∧ Replies (.kiosk k) Kind.claim .ok (.claimed none) t
      ∧ (s.cls p = .scanner → Queued (.kiosk k) (.docState p (s.scanners.get p).document) t)
      ∧ Only (theseTold (.claims p :: asked (.kiosk k)) fun l => l = .kiosk k ∨ s.cls p = .panel) s t

/-- A CLAIM that cannot be granted at once waits in line, and the first failing check of a refused one
decides its code (01_claims_and_grants.md, The claim list, 01_claims_and_grants.md, Claiming,
01_claims_and_grants.md, Idle expiry). For a listening, admitted kiosk that reaches a scanner or panel port
which is not ABSENT, in an OPEN hall, with fewer than 4 records of its own and fewer than 48 in use, but
with a holder, a takeover state other than NONE or the condition CHECKING, CLAIM completes: in an ordered
list the record enters as a waiter behind every record that is the holder or of the same or a better class
and before every waiter of a worse class, the reply is OK WAITING with its position counted among the
waiters, and nothing else changes: no notice is queued. For a listening, admitted kiosk that reaches a
scanner or panel port, when the hall is not OPEN, the port is ABSENT, the kiosk is in the list already, has
4 records in use, or 48 are in use, CLAIM is refused CLOSING, NO_SUCH_PORT, DUPLICATE with its standing,
CLAIM_LIMIT or POOL_FULL, in that order of precedence; a holder's own refused CLAIM re-arms its idle
deadline unless it is suspended or its own scan is in flight, and no other record, no queue and no other
part of the hub changes. -/
def Obligations.ClaimWaitsOrIsRefused : Prop :=
  (∀ (k : KioskId) (p : PortId) (b : Byte) (s : State),
    portOf b = some p → Listens (.kiosk k) s → MayUse k p claimable s → s.hall = .openHall →
    s.cond p ≠ .absent → claimOf (s.claims.get p) k = none →
    s.kioskClaims k < 4 → s.claimCount < 48 →
    (holderOf (s.claims.get p) ≠ none ∨ (s.takes.get p).state ≠ .free ∨ s.cond p = .checking) →
    ListOrdered (s.claims.get p) →
    ∃ t ahead behind, exec (.claim k (.fields b)) s = .next (finish s t)
      ∧ s.claims.get p = ahead ++ behind
      ∧ t.claims.get p = ahead ++ claimant s k :: behind
      ∧ (∀ c ∈ ahead, c.role = .holder ∨ c.cls ≤ (s.profiles.get k).cls)
      ∧ (∀ c ∈ behind, c.role = .waiter ∧ (s.profiles.get k).cls < c.cls)
      ∧ Replies (.kiosk k) Kind.claim .ok (.claimed (some ((waitersOf ahead).length + 1))) t
      ∧ Only (these (.claims p :: asked (.kiosk k))) s t)
  ∧
  ∀ (k : KioskId) (p : PortId) (b : Byte) (s : State),
    portOf b = some p → Listens (.kiosk k) s → MayUse k p claimable s →
    (s.hall ≠ .openHall ∨ s.cond p = .absent ∨ claimOf (s.claims.get p) k ≠ none
      ∨ 4 ≤ s.kioskClaims k ∨ 48 ≤ s.claimCount) →
    ∃ t, exec (.claim k (.fields b)) s = .next (finish s t)
      ∧ (let code : ResultCode :=
          if s.hall ≠ .openHall then .closing
          else if s.cond p = .absent then .noSuchPort
          else if claimOf (s.claims.get p) k ≠ none then .duplicate
          else if 4 ≤ s.kioskClaims k then .claimLimit
          else .poolFull
         Replies (.kiosk k) Kind.claim code (if code = .duplicate then .standing (t.standing p k) else .bare) t)
      ∧ t.claims.get p = (if s.holder p = some k then
          (s.claims.get p).map fun c => if c.role = .holder then
            { c with deadline := if c.suspended then none else armedFor s p c.kiosk } else c
          else s.claims.get p)
      ∧ Only (these (.claims p :: asked (.kiosk k))) s t

/-- RELEASE and a reached idle deadline take a record out of its list, and the head waiter follows a holder
(01_claims_and_grants.md, Releasing and asking, 01_claims_and_grants.md, How a claim ends,
01_claims_and_grants.md, Promotion, 04_scanning.md, Aborts from the rest of the hub,
01_claims_and_grants.md, Idle expiry). For a listening, admitted kiosk that reaches a scanner or panel port
with an ordered list in which it has a record and no scan of its own in flight, RELEASE completes: its
record leaves, the others keep their places, the reply is OK and CLAIM_STATE ENDED RELEASED is handed to it;
when it was the holder and the port is in takeover state NONE, in an OPEN hall and not CHECKING, the head
waiter becomes holder (on a panel, CLAIM_STATE HOLDING is the last notice handed to it). Only the list, the
link, queues and contacts change. A kiosk without a record is answered NOT_HOLDER, and nothing else changes.
For a listening, admitted kiosk that holds a scanner in reach and whose own scan there is STARTING or
SCANNING and not yet aborted, RELEASE completes: besides what every RELEASE does, the scan's record keeps
its state with abort sent, the reason GRANT_ENDED and its result given, the port's stream is closed,
SCAN_ABORT is handed to the adapter's link as the last command frame, and CLAIM_STATE ENDED RELEASED is the
last notice handed to the kiosk. When the holder at the head of an ordered list has an idle deadline that is
reached, and frozen holders have none, IDLE_EXPIRY completes: the holder's record leaves, it is handed
CLAIM_STATE ENDED IDLE, and the head waiter is promoted when the port is in takeover state NONE, in an OPEN
hall and not CHECKING; only the list, queues and contacts change. Without a reached deadline nothing changes
(log 3). -/
def Obligations.ReleaseAndIdleExpiryEndAClaim : Prop :=
  (∀ (k : KioskId) (p : PortId) (b : Byte) (s : State),
    portOf b = some p → Listens (.kiosk k) s → MayUse k p claimable s → ListOrdered (s.claims.get p) →
    ∀ c, claimOf (s.claims.get p) k = some c → ownScan s p k = false →
    ∃ t, exec (.release k (.fields b)) s = .next (finish s t)
      ∧ t.claims.get p =
          (if c.role = .holder then
            promoted s p (mayPromote s p) ((s.claims.get p).filter fun d => d.kiosk != k)
           else (s.claims.get p).filter fun d => d.kiosk != k)
      ∧ Replies (.kiosk k) Kind.release .ok .bare t
      ∧ Queued (.kiosk k) (.claimState p (.ended .released)) t
      ∧ (s.cls p = .panel → c.role = .holder → mayPromote s p = true →
          ∀ d ∈ ((s.claims.get p).filter fun d => d.kiosk != k).head?,
            Queued (.kiosk d.kiosk) (.claimState p .holding) t)
      ∧ Only (theseTold (.claims p :: asked (.kiosk k)) fun _ => True) s t)
  ∧
  (∀ (k : KioskId) (p : PortId) (b : Byte) (s : State),
    portOf b = some p → Listens (.kiosk k) s → MayUse k p claimable s →
    claimOf (s.claims.get p) k = none →
    ∃ t, exec (.release k (.fields b)) s = .next (finish s t)
      ∧ Replies (.kiosk k) Kind.release .notHolder .bare t
      ∧ Only (these (asked (.kiosk k))) s t)
  ∧
  (∀ (k : KioskId) (p : PortId) (b : Byte) (s : State),
    portOf b = some p → Listens (.kiosk k) s → MayUse k p claimable s → s.cls p = .scanner →
    ListOrdered (s.claims.get p) →
    ∀ c, claimOf (s.claims.get p) k = some c → c.role = .holder →
    ∀ x, (s.scanners.get p).scan = some x → x.requester = .kiosk k → x.abortSent = false →
    x.state ≠ .ending →
    ∃ t, exec (.release k (.fields b)) s = .next (finish s t)
      ∧ t.claims.get p = promoted s p (mayPromote s p) ((s.claims.get p).filter fun d => d.kiosk != k)
      ∧ (t.scanners.get p).scan =
          some { x with abortSent := true, reason := some .grantEnded, code := none, resultGiven := true }
      ∧ t.streams.get p = none
      ∧ (t.wires.get p).commands = (s.wires.get p).commands ++ [.scanAbort]
      ∧ Replies (.kiosk k) Kind.release .ok .bare t
      ∧ Queued (.kiosk k) (.claimState p (.ended .released)) t
      ∧ Only (theseTold ([.claims p, .scanner p, .stream p, .waits p, .commands p] ++ asked (.kiosk k))
          fun _ => True) s t)
  ∧
  (∀ (p : PortId) (s : State), ListOrdered (s.claims.get p) → DeadlinesFrozen s →
    ∀ c ∈ (s.claims.get p).head?, c.role = .holder → due s.tick c.deadline = true →
    ∃ t, exec (.idleExpiry p) s = .next (finish s t)
      ∧ t.claims.get p = promoted s p (mayPromote s p) (s.claims.get p).tail
      ∧ Queued (.kiosk c.kiosk) (.claimState p (.ended .idle)) t
      ∧ Only (theseTold [.claims p] fun _ => True) s t)
  ∧
  ∀ (p : PortId) (s : State),
    (∀ c, holderOf (s.claims.get p) = some c → due s.tick c.deadline = false) →
    ∃ t, exec (.idleExpiry p) s = .next (finish s t)
      ∧ t = s

/-- CLAIM_QUERY and CLAIM_LIST report a list, and only a holder's own query touches it
(01_claims_and_grants.md, Releasing and asking, 01_claims_and_grants.md, The staff view of the lists).
CLAIM_QUERY on a scanner or panel port in reach completes with OK, the kiosk's standing, the number of
waiters, whether there is a holder and whether the port is in staff hands. A holder not suspended reads its
full idle expiry in seconds, none when that is 0 or its own scan is in flight; a holder's query re-arms the
deadline, and any other kiosk's query changes nothing. CLAIM_LIST completes with OK, the takeover state, the
length and up to 12 records from the start index on, or with BAD_VALUE for an index above 23, and changes
nothing. An entry carries the record's kiosk, class, role, suspended flag and arrival tick, a waiter's
position, and a holder's grant tick and the whole seconds of its idle time left. That a deadline already
reached shows 0 seconds is the model's choice (log 35). -/
def Obligations.ClaimQueriesReadTheList : Prop :=
  (∀ (k : KioskId) (p : PortId) (b : Byte) (s : State),
    portOf b = some p → Listens (.kiosk k) s → MayUse k p claimable s → ListOrdered (s.claims.get p) →
    (s.configs.get p).inRange = true →
    ∃ t, exec (.claimQuery k (.fields b)) s = .next (finish s t)
      ∧ Replies (.kiosk k) Kind.claimQuery .ok
          (.claimView
            (match claimOf (s.claims.get p) k with
             | none => .none
             | some c =>
               if c.role = .waiter then
                 .waiting ((waitersOf (s.claims.get p)).findIdx (fun d => d.kiosk == k) + 1)
               else if c.suspended then .suspended
               else .holding (if ownScan s p k || (s.configs.get p).idleS == 0 then none
                 else some (s.configs.get p).idleS))
            (waitersOf (s.claims.get p)).length (holderOf (s.claims.get p)).isSome
            ((s.takes.get p).state != .free)) t
      ∧ t.claims.get p = (if s.holder p = some k then
          (s.claims.get p).map fun c => if c.role = .holder then
            { c with deadline := if c.suspended then none else armedFor s p c.kiosk } else c
          else s.claims.get p)
      ∧ Only (these (.claims p :: asked (.kiosk k))) s t)
  ∧
  ∀ (p : PortId) (b : ListBody) (s : State),
    portOf b.port = some p → Listens .staff s → claimable (s.cls p) = true →
    ∃ t, exec (.claimList (.fields b)) s = .next (finish s t)
      ∧ (b.start.toNat ≤ 23 → Replies .staff Kind.claimList .ok
          (.claimList p (s.takes.get p).state (s.claims.get p).length b.start.toNat
            ((((s.claims.get p).drop b.start.toNat).take 12).map fun c =>
              { kiosk := c.kiosk, cls := c.cls, role := c.role, suspended := c.suspended, arrival := c.arrival
                position := if c.role = .waiter then
                  some ((waitersOf (s.claims.get p)).findIdx (fun d => d.kiosk == c.kiosk) + 1) else none
                grant := if c.role = .holder then c.grant else none
                idleLeft := if c.role = .holder then
                  c.deadline.map fun d => (left s.tick d + 9999) / 10000 else none })) t)
      ∧ (23 < b.start.toNat → Replies .staff Kind.claimList .badValue .bare t)
      ∧ Only (these (asked .staff)) s t

/-- A TAKE enters STAFF_HOLD where nothing is in the way, and else waits for the shield, the scan, the hold
or the job (02_staff_takeover_and_hall_closing.md, TAKE, 02_staff_takeover_and_hall_closing.md, Entering
STAFF_HOLD, 03_print_jobs.md, Staff hold of a printer, 02_staff_takeover_and_hall_closing.md, The pending
take). For a listening staff link and a port in use in takeover state NONE without a running shield, with no
scan in flight on a scanner and no job in flight on a printer but a STALLED or HELD one that is not being
aborted, TAKE completes: the port is in STAFF_HOLD without a shield deadline, the holder's record is
suspended with no idle deadline, a job in flight is HELD with its resume state and fault kept and PRINT_HOLD
sent unless it had been, the reply is OK STAFF_HOLD, and TAKE_STATE and the holder's CLAIM_STATE SUSPENDED
are handed over. For a listening staff link and a port in use, TAKE completes as follows. In state NONE with
a running shield the take is pending on SHIELD. Without one, a scanner with a scan in flight makes it
pending on SCAN; a printer with a job in flight that is being aborted makes it pending on JOB, and one
neither STALLED nor HELD pending on HELD with hold asked, PRINT_HOLD sent and the job marked hold sent and
otherwise as it was. In any other state nothing changes. The reply is OK with the state, and a new pending
state is told in TAKE_STATE, which carries a running shield's whole seconds left. -/
def Obligations.TakeHoldsThePortOrWaits : Prop :=
  (∀ (p : PortId) (b : Byte) (s : State),
    portOf b = some p → Listens .staff s → s.cls p ≠ .unused → (s.takes.get p).state = .free →
    shieldRuns s p = false → (s.cls p = .scanner → (s.scanners.get p).scan = none) →
    (s.cls p = .printer → ∀ j ∈ (s.printers.get p).inflight,
      j.abortSent = false ∧ (j.state = .stalled ∨ j.state = .held)) →
    ∃ t, exec (.take (.fields b)) s = .next (finish s t)
      ∧ t.takes.get p = ⟨.staffHold, none⟩
      ∧ t.claims.get p =
          withHolder (fun c => { c with suspended := true, deadline := none }) (s.claims.get p)
      ∧ (s.cls p = .printer → ∀ j ∈ (s.printers.get p).inflight,
          (t.printers.get p).inflight = some { j with state := .held, holdSent := true }
            ∧ (t.wires.get p).commands =
                (s.wires.get p).commands ++ (if j.holdSent then [] else [.printHold]))
      ∧ Replies .staff Kind.take .ok (.takeover .staffHold) t
      ∧ Queued .staff (.takeState p .staffHold none) t
      ∧ (s.cls p ≠ .printer → ∀ k, s.holder p = some k →
          Queued (.kiosk k) (.claimState p .suspended) t)
      ∧ Only (theseTold ([.takeover p, .claims p, .printer p, .stream p, .waits p, .commands p]
          ++ asked .staff) fun _ => True) s t)
  ∧
  (∀ (p : PortId) (b : Byte) (s : State),
    portOf b = some p → Listens .staff s → s.cls p ≠ .unused → (s.takes.get p).state = .free →
    shieldRuns s p = true →
    ∃ t, exec (.take (.fields b)) s = .next (finish s t)
      ∧ t.takes.get p = ⟨.pending .shield false, (s.takes.get p).shield⟩
      ∧ Replies .staff Kind.take .ok (.takeover (.pending .shield false)) t
      ∧ Queued .staff (.takeState p (.pending .shield false) (s.shieldLeft p)) t
      ∧ Only (theseTold (.takeover p :: asked .staff) (· = .staff)) s t)
  ∧
  (∀ (p : PortId) (b : Byte) (s : State),
    portOf b = some p → Listens .staff s → s.cls p = .scanner → (s.takes.get p).state = .free →
    shieldRuns s p = false → (s.scanners.get p).scan ≠ none →
    ∃ t, exec (.take (.fields b)) s = .next (finish s t)
      ∧ t.takes.get p = ⟨.pending .scan false, none⟩
      ∧ Replies .staff Kind.take .ok (.takeover (.pending .scan false)) t
      ∧ Queued .staff (.takeState p (.pending .scan false) none) t
      ∧ Only (theseTold (.takeover p :: asked .staff) (· = .staff)) s t)
  ∧
  (∀ (p : PortId) (b : Byte) (s : State),
    portOf b = some p → Listens .staff s → s.cls p = .printer → (s.takes.get p).state = .free →
    shieldRuns s p = false → ∀ j, (s.printers.get p).inflight = some j → j.abortSent = true →
    ∃ t, exec (.take (.fields b)) s = .next (finish s t)
      ∧ t.takes.get p = ⟨.pending .job false, none⟩
      ∧ Replies .staff Kind.take .ok (.takeover (.pending .job false)) t
      ∧ Queued .staff (.takeState p (.pending .job false) none) t
      ∧ Only (theseTold (.takeover p :: asked .staff) (· = .staff)) s t)
  ∧
  (∀ (p : PortId) (b : Byte) (s : State),
    portOf b = some p → Listens .staff s → s.cls p = .printer → (s.takes.get p).state = .free →
    shieldRuns s p = false → ∀ j, (s.printers.get p).inflight = some j → j.abortSent = false →
    j.state ≠ .stalled → j.state ≠ .held →
    ∃ t, exec (.take (.fields b)) s = .next (finish s t)
      ∧ t.takes.get p = ⟨.pending .held true, none⟩
      ∧ (t.printers.get p).inflight = some { j with holdSent := true }
      ∧ (t.wires.get p).commands = (s.wires.get p).commands ++ [.printHold]
      ∧ Replies .staff Kind.take .ok (.takeover (.pending .held true)) t
      ∧ Queued .staff (.takeState p (.pending .held true) none) t
      ∧ Only (theseTold ([.takeover p, .printer p, .stream p, .waits p, .commands p] ++ asked .staff)
          (· = .staff)) s t)
  ∧
  ∀ (p : PortId) (b : Byte) (s : State),
    portOf b = some p → Listens .staff s → s.cls p ≠ .unused → (s.takes.get p).state ≠ .free →
    ∃ t, exec (.take (.fields b)) s = .next (finish s t)
      ∧ Replies .staff Kind.take .ok (.takeover (s.takes.get p).state) t
      ∧ Only (these (asked .staff)) s t

/-- RETURN frees a port in STAFF_HOLD behind a fresh shield, and the shield's end completes a take that
waits for it (02_staff_takeover_and_hall_closing.md, Returning a port, 04_scanning.md, Aborts from the rest
of the hub, 03_print_jobs.md, Staff hold of a printer, 02_staff_takeover_and_hall_closing.md, The takeover
state of a port, 02_staff_takeover_and_hall_closing.md, The pending take). For a listening staff link, a
port in use in STAFF_HOLD, an ordered list and a configuration in range, RETURN completes: the takeover
state is NONE with the return shield from now on, none for 0; a holder is no longer suspended and its idle
deadline is armed afresh unless its own scan is in flight, and without a holder the head waiter is promoted
in an OPEN hall on a port not CHECKING; a staff scan STARTING or SCANNING is aborted RETURNED; a HELD job is
STALLED with a fault outstanding and else back in its resume state, with PRINT_RESUME when PRINT_HOLD had
been sent; the reply is OK with the shield in seconds. For a listening staff link and a port in use, RETURN
in TAKE_PENDING completes with the state NONE and the shield deadline unchanged; with hold asked, a job in
flight whose PRINT_HOLD was sent and which is not HELD is sent PRINT_RESUME and keeps its state; in an
ordered list without a holder the head waiter is promoted in an OPEN hall on a port not CHECKING; the reply
is OK NONE, and TAKE_STATE NONE is handed over. In state NONE the reply is the same, and nothing changes.
When a port's shield deadline is reached, SHIELD_EXPIRY completes: the deadline is absent; a take that waits
for SHIELD enters STAFF_HOLD where nothing is in flight on the port, waits for SCAN where a scan is in
flight on a scanner, and any other takeover state is kept with nothing else changed. Without a reached
deadline nothing changes (log 3). -/
def Obligations.ReturnAndShieldFreeThePort : Prop :=
  (∀ (p : PortId) (b : Byte) (s : State),
    portOf b = some p → Listens .staff s → s.cls p ≠ .unused → (s.takes.get p).state = .staffHold →
    ListOrdered (s.claims.get p) → (s.configs.get p).inRange = true →
    ∃ t, exec (.giveBack (.fields b)) s = .next (finish s t)
      ∧ t.takes.get p = ⟨.free, endOf s (seconds (s.configs.get p).shieldS)⟩
      ∧ t.claims.get p = (if (s.holder p).isSome then
          withHolder (fun c => { c with suspended := false, deadline := armedFor s p c.kiosk })
            (s.claims.get p)
          else promoted s p (s.hall == .openHall && s.cond p != .checking) (s.claims.get p))
      ∧ (s.cls p = .scanner → ∀ x ∈ (s.scanners.get p).scan, x.requester = .staff →
          x.abortSent = false → x.state ≠ .ending →
          (t.scanners.get p).scan =
              some { x with abortSent := true, reason := some .returned, code := none, resultGiven := true }
            ∧ t.streams.get p = none
            ∧ (t.wires.get p).commands = (s.wires.get p).commands ++ [.scanAbort])
      ∧ (s.cls p = .printer → ∀ j ∈ (s.printers.get p).inflight, j.state = .held →
          (t.printers.get p).inflight = some
              (if j.fault.isSome then { j with state := .stalled, holdSent := false }
               else { j with state := resumed j.resume, resume := none, holdSent := false })
            ∧ (t.wires.get p).commands =
                (s.wires.get p).commands ++ (if j.holdSent then [.printResume] else []))
      ∧ Replies .staff Kind.giveBack .ok (.returned (some (s.configs.get p).shieldS)) t
      ∧ Queued .staff (.takeState p .free
          (if (s.configs.get p).shieldS = 0 then none else some (s.configs.get p).shieldS)) t
      ∧ (s.cls p ≠ .printer → ∀ k, s.holder p = some k → Queued (.kiosk k) (.claimState p .holding) t)
      ∧ Only (theseTold ([.takeover p, .claims p, .printer p, .scanner p, .stream p, .waits p, .commands p]
          ++ asked .staff) fun _ => True) s t)
  ∧
  (∀ (p : PortId) (b : Byte) (s : State),
    portOf b = some p → Listens .staff s → s.cls p ≠ .unused → (s.takes.get p).state ≠ .free →
    (s.takes.get p).state ≠ .staffHold → ListOrdered (s.claims.get p) →
    ∃ t, exec (.giveBack (.fields b)) s = .next (finish s t)
      ∧ t.takes.get p = ⟨.free, (s.takes.get p).shield⟩
      ∧ t.claims.get p = (if (s.holder p).isSome then s.claims.get p
          else promoted s p (s.hall == .openHall && s.cond p != .checking) (s.claims.get p))
      ∧ ((s.takes.get p).state = .pending .held true → ∀ j ∈ (s.printers.get p).inflight,
          j.holdSent = true → j.state ≠ .held →
          (t.printers.get p).inflight = some { j with holdSent := false }
            ∧ (t.wires.get p).commands = (s.wires.get p).commands ++ [.printResume])
      ∧ Replies .staff Kind.giveBack .ok (.returned none) t
      ∧ Queued .staff (.takeState p .free (s.shieldLeft p)) t
      ∧ Only (theseTold ([.takeover p, .claims p, .printer p, .stream p, .waits p, .commands p]
          ++ asked .staff) fun _ => True) s t)
  ∧
  (∀ (p : PortId) (b : Byte) (s : State),
    portOf b = some p → Listens .staff s → s.cls p ≠ .unused → (s.takes.get p).state = .free →
    ∃ t, exec (.giveBack (.fields b)) s = .next (finish s t)
      ∧ Replies .staff Kind.giveBack .ok (.returned none) t
      ∧ Only (these (asked .staff)) s t)
  ∧
  (∀ (p : PortId) (s : State), due s.tick (s.takes.get p).shield = true →
    (s.takes.get p).state ≠ .pending .shield false → (s.takes.get p).state ≠ .pending .shield true →
    ∃ t, exec (.shieldExpiry p) s = .next (finish s t)
      ∧ t.takes.get p = ⟨(s.takes.get p).state, none⟩
      ∧ Only (these [.takeover p]) s t)
  ∧
  (∀ (p : PortId) (s : State), due s.tick (s.takes.get p).shield = true →
    (s.takes.get p).state = .pending .shield false → (s.scanners.get p).scan = none →
    (s.printers.get p).inflight = none →
    ∃ t, exec (.shieldExpiry p) s = .next (finish s t)
      ∧ t.takes.get p = ⟨.staffHold, none⟩
      ∧ t.claims.get p =
          withHolder (fun c => { c with suspended := true, deadline := none }) (s.claims.get p)
      ∧ Queued .staff (.takeState p .staffHold none) t
      ∧ Only (theseTold [.takeover p, .claims p] fun _ => True) s t)
  ∧
  (∀ (p : PortId) (s : State), due s.tick (s.takes.get p).shield = true → s.cls p = .scanner →
    (s.takes.get p).state = .pending .shield false → (s.scanners.get p).scan ≠ none →
    ∃ t, exec (.shieldExpiry p) s = .next (finish s t)
      ∧ t.takes.get p = ⟨.pending .scan false, none⟩
      ∧ Queued .staff (.takeState p (.pending .scan false) none) t
      ∧ Only (theseTold [.takeover p] (· = .staff)) s t)
  ∧
  ∀ (p : PortId) (s : State), due s.tick (s.takes.get p).shield = false →
    ∃ t, exec (.shieldExpiry p) s = .next (finish s t)
      ∧ t = s

/-- CLOSE in an OPEN hall ends every claim but those of holders with a scan of their own, and may find the
hall QUIET (02_staff_takeover_and_hall_closing.md, Closing, 02_staff_takeover_and_hall_closing.md, Quiet).
For a listening staff link, an OPEN hall and ordered lists, CLOSE completes: of each list only the holder of
a scanner that is not in STAFF_HOLD and whose own scan is in flight stays, marked closing; the hall is QUIET
if no claim, job, kiosk scan or check remains and else CLOSING; the reply and the HALL_STATE handed to the
staff link carry that state; jobs, conditions and takeover states stay. In CLOSING and QUIET the reply is OK
with the present state, and nothing changes. -/
def Obligations.CloseWindsTheHallDown : Prop :=
  (∀ (s : State), Listens .staff s → s.hall = .openHall → (∀ p, ListOrdered (s.claims.get p)) →
    ∃ t, exec (.closeHall (.fields ())) s = .next (finish s t)
      ∧ (∀ p, t.claims.get p =
          (match holderOf (s.claims.get p) with
           | none => []
           | some c =>
             if s.cls p = .scanner ∧ (s.takes.get p).state ≠ .staffHold ∧ ownScan s p c.kiosk = true then
               [{ c with closing := true }]
             else []))
      ∧ t.hall = (if t.quietCondition then .quiet else .closing)
      ∧ Replies .staff Kind.closeHall .ok (.hall t.hall) t
      ∧ Queued .staff (.hallState t.hall t.counts) t
      ∧ Only (fun x => x = .hall ∨ x ∈ asked .staff ∨ told (fun _ => True) x
          ∨ ∃ p, x ∈ [.claims p, .scanner p, .stream p, .waits p, .commands p]) s t)
  ∧
  ∀ (s : State), Listens .staff s → s.hall ≠ .openHall →
    ∃ t, exec (.closeHall (.fields ())) s = .next (finish s t)
      ∧ Replies .staff Kind.closeHall .ok (.hall s.hall) t
      ∧ Only (these (asked .staff)) s t

/-- OPEN in a CLOSING or QUIET hall opens it, removes the closing marks and promotes where a port is free
(02_staff_takeover_and_hall_closing.md, Opening). For a listening staff link, a hall that is not OPEN, no
LOAD in progress and ordered lists, OPEN completes: the hall is OPEN, no record carries the closing mark,
and each list without a holder on a port in takeover state NONE and not CHECKING has its head waiter
promoted; the reply is OK OPEN and HALL_STATE is handed over. While the save state is LOADING the reply is
BUSY, and in an OPEN hall OK OPEN, and nothing changes. -/
def Obligations.OpenBringsTheHallBack : Prop :=
  (∀ (s : State), Listens .staff s → s.hall ≠ .openHall → s.loader.save ≠ .loading →
    (∀ p, ListOrdered (s.claims.get p)) →
    ∃ t, exec (.openHall (.fields ())) s = .next (finish s t)
      ∧ t.hall = .openHall
      ∧ (∀ p, t.claims.get p =
          (if (s.holder p).isSome then (s.claims.get p).map fun c => { c with closing := false }
           else promoted s p ((s.takes.get p).state == .free && s.cond p != .checking)
             ((s.claims.get p).map fun c => { c with closing := false })))
      ∧ Replies .staff Kind.openHall .ok (.hall .openHall) t
      ∧ Queued .staff (.hallState .openHall s.counts) t
      ∧ Only (fun x => x = .hall ∨ x ∈ asked .staff ∨ told (fun _ => True) x ∨ ∃ p, x = .claims p) s t)
  ∧
  (∀ (s : State), Listens .staff s → s.loader.save = .loading →
    ∃ t, exec (.openHall (.fields ())) s = .next (finish s t)
      ∧ Replies .staff Kind.openHall .busy .bare t
      ∧ Only (these (asked .staff)) s t)
  ∧
  ∀ (s : State), Listens .staff s → s.loader.save ≠ .loading → s.hall = .openHall →
    ∃ t, exec (.openHall (.fields ())) s = .next (finish s t)
      ∧ Replies .staff Kind.openHall .ok (.hall .openHall) t
      ∧ Only (these (asked .staff)) s t

/-- An allocation takes the first id from the next-id counter on that no live job has, and always finds one
(R45). With at most 64 live jobs and ids as they always are, the value that an accepted SUBMIT takes lies in
1 to 4095 and names no live job, every value passed over on the way from the counter names one, fewer than
65 are passed over, and an accepted SUBMIT takes it and sets the counter behind it, 1 behind 4095; power-on,
the reset line and HUB_RESET set the counter to 1, and a LOAD leaves it. Whatever the command, live ids stay
in 1 to 4095 with none twice. -/
def Obligations.FreshJobIds : Prop :=
  (∀ (s : State), s.jobCount ≤ 64 → JobIdsUnique s →
    1 ≤ freshId s ∧ freshId s ≤ 4095 ∧ s.jobLive (freshId s) = false
      ∧ ∃ i, i < 65 ∧ freshId s = idAt s i ∧ ∀ j < i, s.jobLive (idAt s j) = true)
  ∧
  (∀ (k : KioskId) (p : PortId) (b : SubmitBody) (s : State),
    portOf b.port = some p → Listens (.kiosk k) s → MayUse k p printable s → s.hall = .openHall →
    s.cond p ≠ .absent → b.pages ≠ 0 → (∀ y ∈ b.tray, y.toNat ≤ 3) → s.kioskJobs k < 4 →
    s.jobCount < 64 → JobIdsUnique s →
    ∃ t, exec (.submit k (.fields b)) s = .next (finish s t)
      ∧ t.nextJob = freshId s % 4095 + 1
      ∧ freshId s ∈ (Printer.jobs (t.printers.get p)).map (·.id)
      ∧ (t.kiosks.get k).reply.map (fun r => r.code) = some .ok)
  ∧
  (∀ (s t : State), exec .powerOn s = .next t ∨ exec .resetLine s = .next t
      ∨ (Listens .staff s ∧ exec (.hubReset (.fields ())) s = .next t) → t.nextJob = 1)
  ∧
  (∀ (a : MemoryAnswer) (s t : State), exec (.loadReadEnds a) s = .next t → t.nextJob = s.nextJob)
  ∧
  ∀ (c : Instr) (s t : State), JobsBounded s → JobIdsUnique s → exec c s = .next t → JobIdsUnique t

/-- ARRIVAL serves in submission order; PRIORITY serves the lowest number first and equals in submission
order (03_print_jobs.md, The printer queue). The serving order of a queue is the queue itself under ARRIVAL.
Under PRIORITY it holds the same jobs, sorted by ascending priority number, and the jobs of each one
priority stand in it as they stand in the queue. -/
def Obligations.ServingOrderIsStable : Prop :=
  (∀ q : List Job, servingOrder .arrival q = q)
  ∧ ∀ q : List Job, (servingOrder .priority q).Perm q
      ∧ (servingOrder .priority q).Pairwise (fun a b => a.priority ≤ b.priority)
      ∧ ∀ n, (servingOrder .priority q).filter (fun j => j.priority == n)
          = q.filter fun j => j.priority == n

/-- A SUBMIT queues the job or starts it at once, and the first failing check of a refused one decides its
code (03_print_jobs.md, SUBMIT, 03_print_jobs.md, The printer queue, 03_print_jobs.md, Selection and the
start of a job). For a listening, admitted kiosk that reaches a printer port not ABSENT, in an OPEN hall,
with pages given, a right tray, fewer than 4 live jobs of its own and 64 in all, SUBMIT completes with a
fresh id and the counter behind it. Where no selection is possible the job joins the end of the queue and
the reply is OK QUEUED with its place in the serving order. Where one is and the queue is empty, the job is
STARTING in flight, PRINT_START is sent, JOB_STATE STARTING is handed over and the reply is OK STARTING
without a place. For a listening, admitted kiosk that reaches a printer port, when the hall is not OPEN, the
port is ABSENT, the pages are 0 or a tray given is above 3, the kiosk has 4 live jobs or 64 are live, SUBMIT
is refused CLOSING, NO_SUCH_PORT, BAD_VALUE, JOB_LIMIT or POOL_FULL, in that order of precedence, and only
the link unit and the reply slot change. -/
def Obligations.SubmitQueuesStartsOrIsRefused : Prop :=
  (∀ (k : KioskId) (p : PortId) (b : SubmitBody) (s : State),
    portOf b.port = some p → Listens (.kiosk k) s → MayUse k p printable s → s.hall = .openHall →
    s.cond p ≠ .absent → b.pages ≠ 0 → (∀ y ∈ b.tray, y.toNat ≤ 3) → s.kioskJobs k < 4 →
    s.jobCount < 64 → JobIdsUnique s → maySelect s p = false →
    ∃ t, exec (.submit k (.fields b)) s = .next (finish s t)
      ∧ t.printers.get p =
          { s.printers.get p with queue := (s.printers.get p).queue ++ [submittedJob s k b] }
      ∧ t.nextJob = freshId s % 4095 + 1
      ∧ Replies (.kiosk k) Kind.submit .ok (.submitted (freshId s) .queued
          (some (match (s.configs.get p).queueMode with
            | .arrival => (s.printers.get p).queue.length + 1
            | .priority =>
              (s.printers.get p).queue.countP (fun j => j.priority ≤ min b.priority.toNat 7) + 1))) t
      ∧ Only (these ([.printer p, .nextJob] ++ asked (.kiosk k))) s t)
  ∧
  (∀ (k : KioskId) (p : PortId) (b : SubmitBody) (s : State),
    portOf b.port = some p → Listens (.kiosk k) s → MayUse k p printable s → s.hall = .openHall →
    s.cond p ≠ .absent → b.pages ≠ 0 → (∀ y ∈ b.tray, y.toNat ≤ 3) → s.kioskJobs k < 4 →
    s.jobCount < 64 → JobIdsUnique s → maySelect s p = true → (s.printers.get p).queue = [] →
    ∃ t, exec (.submit k (.fields b)) s = .next (finish s t)
      ∧ t.printers.get p =
          { s.printers.get p with inflight := some { submittedJob s k b with state := .starting } }
      ∧ t.nextJob = freshId s % 4095 + 1
      ∧ (t.wires.get p).commands = (s.wires.get p).commands ++
          [.printStart (freshId s) (submittedJob s k b).copies (submittedJob s k b).pages
            (submittedJob s k b).options]
      ∧ Replies (.kiosk k) Kind.submit .ok (.submitted (freshId s) .starting none) t
      ∧ Queued (.kiosk k) (jobTold p (submittedJob s k b) (.live .starting) false) t
      ∧ Only (theseTold ([.printer p, .nextJob, .stream p, .waits p, .commands p] ++ asked (.kiosk k))
          (· = .kiosk k)) s t)
  ∧
  ∀ (k : KioskId) (p : PortId) (b : SubmitBody) (s : State),
    portOf b.port = some p → Listens (.kiosk k) s → MayUse k p printable s →
    (s.hall ≠ .openHall ∨ s.cond p = .absent ∨ b.pages = 0 ∨ (∃ y ∈ b.tray, 3 < y.toNat)
      ∨ 4 ≤ s.kioskJobs k ∨ 64 ≤ s.jobCount) →
    ∃ t, exec (.submit k (.fields b)) s = .next (finish s t)
      ∧ Replies (.kiosk k) Kind.submit
          (if s.hall ≠ .openHall then .closing
           else if s.cond p = .absent then .noSuchPort
           else if b.pages = 0 ∨ ∃ y ∈ b.tray, 3 < y.toNat then .badValue
           else if 4 ≤ s.kioskJobs k then .jobLimit
           else .poolFull) .bare t
      ∧ Only (these (asked (.kiosk k))) s t

/-- CANCEL and JOB_DROP end a queued job at once, and ask the adapter to stop a job in flight
(03_print_jobs.md, CANCEL, 03_print_jobs.md, JOB_DROP, 03_print_jobs.md, Aborts and endings). For a
listening, admitted kiosk and a queued job of its own, CANCEL completes: the job leaves its queue, the other
jobs stay, the reply is OK CANCELLED and the kiosk is handed JOB_STATE CANCELLED. JOB_DROP from a listening
staff link does the same to any kiosk's queued job, its reply names the kiosk, and the JOB_STATE says by
staff. For a job in flight whose abort has not been sent, CANCEL of its listening, admitted kiosk and
JOB_DROP of a listening staff link complete: cancel-requested is set, the cause is CANCEL or DROP, abort
sent is set and the job is otherwise as it was, the port's stream is closed, PRINT_ABORT is the last command
frame, and the reply is OK with the job's present state; no notice is handed over. An id without a live job,
or for CANCEL one of another kiosk's job, is answered NO_SUCH_JOB, and nothing else changes. -/
def Obligations.CancelAndDropByState : Prop :=
  (∀ (k : KioskId) (p : PortId) (id : Half) (s : State),
    Listens (.kiosk k) s → (s.profiles.get k).admitted = true → JobsBounded s → JobIdsUnique s →
    ∀ j ∈ (s.printers.get p).queue, j.id = id.toNat → j.kiosk = k →
    ∃ t, exec (.cancel k (.fields id)) s = .next (finish s t)
      ∧ t.printers.get p =
          { s.printers.get p with queue := (s.printers.get p).queue.filter fun i => i.id != j.id }
      ∧ Replies (.kiosk k) Kind.cancel .ok (.cancelled (.ended .cancelled)) t
      ∧ Queued (.kiosk k) (jobTold p j (.ended .cancelled) (j.cancelRequested == .staff)) t
      ∧ Only (theseTold (.printer p :: asked (.kiosk k)) (· = .kiosk k)) s t)
  ∧
  (∀ (p : PortId) (id : Half) (s : State),
    Listens .staff s → JobsBounded s → JobIdsUnique s →
    ∀ j ∈ (s.printers.get p).queue, j.id = id.toNat →
    ∃ t, exec (.jobDrop (.fields id)) s = .next (finish s t)
      ∧ t.printers.get p =
          { s.printers.get p with queue := (s.printers.get p).queue.filter fun i => i.id != j.id }
      ∧ Replies .staff Kind.jobDrop .ok (.dropped j.kiosk (.ended .cancelled)) t
      ∧ Queued (.kiosk j.kiosk) (jobTold p j (.ended .cancelled) true) t
      ∧ Only (theseTold (.printer p :: asked .staff) (· = .kiosk j.kiosk)) s t)
  ∧
  (∀ (k : KioskId) (p : PortId) (id : Half) (s : State),
    Listens (.kiosk k) s → (s.profiles.get k).admitted = true → JobsBounded s → JobIdsUnique s →
    ∀ j, (s.printers.get p).inflight = some j → j.id = id.toNat → j.kiosk = k → j.abortSent = false →
    ∃ t, exec (.cancel k (.fields id)) s = .next (finish s t)
      ∧ (t.printers.get p).inflight = some
          { j with cancelRequested := if j.cancelRequested = .staff then .staff else .kiosk,
                   abortCause := some .cancel, abortSent := true }
      ∧ t.streams.get p = none
      ∧ (t.wires.get p).commands = (s.wires.get p).commands ++ [.printAbort]
      ∧ Replies (.kiosk k) Kind.cancel .ok (.cancelled (.live j.state)) t
      ∧ Only (these ([.printer p, .stream p, .waits p, .commands p] ++ asked (.kiosk k))) s t)
  ∧
  (∀ (p : PortId) (id : Half) (s : State),
    Listens .staff s → JobsBounded s → JobIdsUnique s →
    ∀ j, (s.printers.get p).inflight = some j → j.id = id.toNat → j.abortSent = false →
    ∃ t, exec (.jobDrop (.fields id)) s = .next (finish s t)
      ∧ (t.printers.get p).inflight = some
          { j with cancelRequested := .staff, abortCause := some .drop, abortSent := true }
      ∧ t.streams.get p = none
      ∧ (t.wires.get p).commands = (s.wires.get p).commands ++ [.printAbort]
      ∧ Replies .staff Kind.jobDrop .ok (.dropped j.kiosk (.live j.state)) t
      ∧ Only (these ([.printer p, .stream p, .waits p, .commands p] ++ asked .staff)) s t)
  ∧
  (∀ (k : KioskId) (id : Half) (s : State),
    Listens (.kiosk k) s → (s.profiles.get k).admitted = true →
    (∀ p, ∀ j ∈ Printer.jobs (s.printers.get p), j.id = id.toNat → j.kiosk ≠ k) →
    ∃ t, exec (.cancel k (.fields id)) s = .next (finish s t)
      ∧ Replies (.kiosk k) Kind.cancel .noSuchJob .bare t
      ∧ Only (these (asked (.kiosk k))) s t)
  ∧
  ∀ (id : Half) (s : State),
    Listens .staff s → (∀ p, ∀ j ∈ Printer.jobs (s.printers.get p), j.id ≠ id.toNat) →
    ∃ t, exec (.jobDrop (.fields id)) s = .next (finish s t)
      ∧ Replies .staff Kind.jobDrop .noSuchJob .bare t
      ∧ Only (these (asked .staff)) s t

/-- JOB_QUERY and QUEUE_LIST report jobs in the serving order and change nothing (03_print_jobs.md,
JOB_QUERY, 03_print_jobs.md, QUEUE_LIST). JOB_QUERY of a listening, admitted kiosk for a live job of its own
completes with OK, the job's record, and its 1-based place in the serving order while it is queued, none in
flight. QUEUE_LIST of a listening staff link for a printer port completes with OK, the queue mode, the job
in flight, the gap left in milliseconds rounded up to hundreds, the length of the queue and up to 16
summaries of the serving order from the start index on, or with BAD_VALUE for an index above 63. Neither
changes anything but the link unit and the reply slot. That a gap deadline already reached shows 0 is the
model's choice (log 35). -/
def Obligations.JobQueriesReadTheQueue : Prop :=
  (∀ (k : KioskId) (p : PortId) (id : Half) (s : State),
    Listens (.kiosk k) s → (s.profiles.get k).admitted = true → JobsBounded s → JobIdsUnique s →
    ∀ j ∈ Printer.jobs (s.printers.get p), j.id = id.toNat → j.kiosk = k →
    ∃ t, exec (.jobQuery k (.fields id)) s = .next (finish s t)
      ∧ Replies (.kiosk k) Kind.jobQuery .ok (.jobRecord p j
          (if j.state = .queued then
            some ((servingOrder (s.configs.get p).queueMode (s.printers.get p).queue).findIdx
              (fun i => i.id == j.id) + 1)
           else none)) t
      ∧ Only (these (asked (.kiosk k))) s t)
  ∧
  ∀ (p : PortId) (b : ListBody) (s : State),
    portOf b.port = some p → Listens .staff s → s.cls p = .printer →
    ∃ t, exec (.queueList (.fields b)) s = .next (finish s t)
      ∧ (b.start.toNat ≤ 63 → Replies .staff Kind.queueList .ok
          (.queueList p (s.configs.get p).queueMode ((s.printers.get p).inflight.map summaryOf)
            ((s.printers.get p).gap.map fun d => (left s.tick d + 999) / 1000 * 100)
            (s.printers.get p).queue.length b.start.toNat
            ((((servingOrder (s.configs.get p).queueMode (s.printers.get p).queue).drop
              b.start.toNat).take 16).map summaryOf)) t)
      ∧ (63 < b.start.toNat → Replies .staff Kind.queueList .badValue .bare t)
      ∧ Only (these (asked .staff)) s t

/-- PRINT_ACCEPT opens the job's stream, PROGRESS keeps the reported count of sheets and tells the kiosk,
and HELD completes a pending take (03_print_jobs.md, The job in flight, 07_streams_and_kiosk_delivery.md,
The stream record, 02_staff_takeover_and_hall_closing.md, The pending take). From an attended adapter of a
printer port, PRINT_ACCEPT for a job in flight not being aborted completes: a STARTING job becomes PRINTING
and the kiosk is handed JOB_STATE PRINTING; a STALLED or HELD job with resume state STARTING keeps its state
and has resume state PRINTING; the port's stream is a PULL stream with the kiosk as partner, all four
credits owed to it, the adapter's credit taken into 1 to 8 as sink credit, and forward held and stall frozen
as the state has them. For any other job, or none, it is a sign of life only. From an attended adapter of a
printer port, PROGRESS with a count that differs from the one held for the job in flight completes: pages
printed takes it, saturating at 9999, the job is otherwise as it was, and its kiosk is handed JOB_STATE with
the job's state and the new count, and with the fault outstanding in STALLED or HELD; that a STALLED job
with no fault outstanding, as one that CLEARED aborted, shows none there is the model's choice (log 42).
With the same count, or no job, it is a sign of life only. HELD completes a take pending with hold asked:
the port is in STAFF_HOLD, a holder's record is suspended without an idle deadline, TAKE_STATE STAFF_HOLD is
handed over, and a job in flight for which PRINT_HOLD was sent and which is not being aborted is HELD with
no second PRINT_HOLD, while one being aborted stays as it was; in any other takeover state it is a sign of
life that ends its wait. -/
def Obligations.PrinterReportsAreTaken : Prop :=
  (∀ (p : PortId) (c : Byte) (s : State), Attends p s → s.cls p = .printer →
    ∀ j, (s.printers.get p).inflight = some j → j.abortSent = false → j.state = .starting →
    ∃ t, exec (.printAccept p c) s = .next (finish s t)
      ∧ (t.printers.get p).inflight = some { j with state := .printing }
      ∧ t.streams.get p = some ⟨.pull, .kiosk j.kiosk, 0, 0, 4, max 1 (min c.toNat 8), [], false, false,
          false, none⟩
      ∧ .printStart ∉ (t.ctls.get p).waits ∧ .jobProgress ∈ (t.ctls.get p).waits
      ∧ Queued (.kiosk j.kiosk) (jobTold p j (.live .printing) false) t
      ∧ Only (theseTold ([.printer p, .stream p] ++ heard p) (· = .kiosk j.kiosk)) s t)
  ∧
  (∀ (p : PortId) (c : Byte) (s : State), Attends p s → s.cls p = .printer →
    ∀ j, (s.printers.get p).inflight = some j → j.abortSent = false →
    j.state = .stalled ∨ j.state = .held → j.resume = some .starting →
    ∃ t, exec (.printAccept p c) s = .next (finish s t)
      ∧ (t.printers.get p).inflight = some { j with resume := some .printing }
      ∧ t.streams.get p = some ⟨.pull, .kiosk j.kiosk, 0, 0, 4, max 1 (min c.toNat 8), [], false,
          j.state == .held, true, none⟩
      ∧ Only (these ([.printer p, .stream p] ++ heard p)) s t)
  ∧
  (∀ (p : PortId) (c : Byte) (s : State), Attends p s →
    (s.cls p = .printer → ∀ j ∈ (s.printers.get p).inflight, j.abortSent = true
      ∨ j.state = .printing ∨ j.state = .ending ∨ (j.state ≠ .starting ∧ j.resume ≠ some .starting)) →
    ∃ t, exec (.printAccept p c) s = .next (finish s t)
      ∧ Only (these (heard p)) s t)
  ∧
  (∀ (p : PortId) (n : Half) (s : State), Attends p s → s.cls p = .printer →
    ∀ j, (s.printers.get p).inflight = some j → min 9999 n.toNat ≠ j.printed →
    ∃ t, exec (.progress p n) s = .next (finish s t)
      ∧ (t.printers.get p).inflight = some { j with printed := min 9999 n.toNat }
      ∧ Queued (.kiosk j.kiosk) (.jobState
          { id := j.id, tag := j.tag, port := p, report := .live j.state, printed := min 9999 n.toNat
            fault := if j.state = .stalled ∨ j.state = .held then j.fault else none, byStaff := false }) t
      ∧ Only (theseTold ([.printer p, .stream p] ++ heard p) (· = .kiosk j.kiosk)) s t)
  ∧
  (∀ (p : PortId) (n : Half) (s : State), Attends p s →
    (s.cls p = .printer → ∀ j ∈ (s.printers.get p).inflight, min 9999 n.toNat = j.printed) →
    ∃ t, exec (.progress p n) s = .next (finish s t)
      ∧ Only (these (heard p)) s t)
  ∧
  (∀ (p : PortId) (s : State), Attends p s → s.cls p = .printer →
    (s.takes.get p).state = .pending .held true →
    ∃ t, exec (.held p) s = .next (finish s t)
      ∧ t.takes.get p = ⟨.staffHold, (s.takes.get p).shield⟩
      ∧ (∀ j ∈ (s.printers.get p).inflight, j.abortSent = false → j.holdSent = true →
          (t.printers.get p).inflight = some { j with state := .held, resume := resumeOf j })
      ∧ (∀ j ∈ (s.printers.get p).inflight, j.abortSent = true →
          (t.printers.get p).inflight = some j)
      ∧ t.claims.get p =
          withHolder (fun c => { c with suspended := true, deadline := none }) (s.claims.get p)
      ∧ ((∀ j ∈ (s.printers.get p).inflight, j.holdSent = true ∨ j.abortSent = true) →
          (t.wires.get p).commands = (s.wires.get p).commands)
      ∧ Queued .staff (.takeState p .staffHold (s.shieldLeft p)) t
      ∧ Only (theseTold ([.takeover p, .claims p, .printer p, .stream p, .commands p] ++ heard p)
          fun _ => True) s t)
  ∧
  ∀ (p : PortId) (s : State), Attends p s →
    (s.cls p = .printer → (s.takes.get p).state ≠ .pending .held true) →
    ∃ t, exec (.held p) s = .next (finish s t)
      ∧ Only (these (heard p)) s t

/-- PRINT_END ends the job in flight with the end state its abort cause gives, and the gap's end starts the
next job (03_print_jobs.md, Aborts and endings, 03_print_jobs.md, Selection and the start of a job,
02_staff_takeover_and_hall_closing.md, The pending take). From an attended adapter of a printer port with a
job in flight, PRINT_END completes: the stream is closed, and the kiosk is handed JOB_STATE with the sheets
up to 9999 and the end state, which is DONE, or DONE_DESPITE_CANCEL after a request to cancel, for the
outcome DONE, and else CANCELLED for an abort cause CANCEL or DROP, FAILED with the recorded reason, or
FAILED DEVICE without one (read in a queue that the event's later notices cannot overflow). The gap deadline
is set, absent for a gap of 0. A take pending on HELD or JOB becomes STAFF_HOLD, and no job starts. In any
other takeover state, a take pending on SHIELD or SCAN and STAFF_HOLD among them, that state stays. No job
starts there with an inter-job gap, in a takeover state other than NONE, on a port not SERVING or not at
READY, or with an empty queue; else the head of the serving order starts. Without a job in flight PRINT_END
is a sign of life only. When a port's gap deadline is reached, GAP_EXPIRY completes with the deadline
absent; with no job in flight on a port SERVING at READY in takeover state NONE the head of the serving
order is STARTING in flight, PRINT_START is sent and JOB_STATE STARTING is handed to its kiosk, and with one
of these conditions false, or an empty queue, nothing else changes. Without a reached deadline nothing
changes (log 3). -/
def Obligations.PrintEndEndsTheJob : Prop :=
  (∀ (p : PortId) (o : Byte) (n : Half) (s : State), Attends p s → s.cls p = .printer →
    (∀ h, (s.takes.get p).state ≠ .pending .held h ∧ (s.takes.get p).state ≠ .pending .job h) →
    ((s.configs.get p).gapMs ≠ 0 ∨ (s.takes.get p).state ≠ .free ∨ s.cond p ≠ .serving
      ∨ (s.power.get p).reached ≠ some .ready ∨ (s.printers.get p).queue = []) →
    ∀ j, (s.printers.get p).inflight = some j →
    ∃ t, exec (.printEnd p o n) s = .next (finish s t)
      ∧ t.printers.get p = { s.printers.get p with
          inflight := none, gap := endOf s (millis (s.configs.get p).gapMs) }
      ∧ t.streams.get p = none
      ∧ Queued (.kiosk j.kiosk) (endTold p j o n) t
      ∧ Only (theseTold ([.printer p, .stream p] ++ heard p) (· = .kiosk j.kiosk)) s t)
  ∧
  (∀ (p : PortId) (o : Byte) (n : Half) (s : State), Attends p s → s.cls p = .printer →
    (s.takes.get p).state = .free → (s.configs.get p).gapMs = 0 → s.cond p = .serving →
    (s.power.get p).reached = some .ready → ∀ j, (s.printers.get p).inflight = some j →
    ∀ i, (servingOrder (s.configs.get p).queueMode (s.printers.get p).queue).head? = some i →
    ∃ t, exec (.printEnd p o n) s = .next (finish s t)
      ∧ t.printers.get p = ⟨(s.printers.get p).queue.filter fun q => q.id != i.id,
          some { i with state := .starting }, none⟩
      ∧ t.streams.get p = none
      ∧ (t.wires.get p).commands =
          (s.wires.get p).commands ++ [.printStart i.id i.copies i.pages i.options]
      ∧ .printStart ∈ (t.ctls.get p).waits
      ∧ Queued (.kiosk i.kiosk) (jobTold p i (.live .starting) false) t
      ∧ (i.id ≠ j.id → HasSlack (.kiosk j.kiosk) s → Queued (.kiosk j.kiosk) (endTold p j o n) t)
      ∧ Only (theseTold ([.printer p, .stream p, .commands p] ++ heard p)
          fun l => l = .kiosk j.kiosk ∨ l = .kiosk i.kiosk) s t)
  ∧
  (∀ (p : PortId) (o : Byte) (n : Half) (w : Waiting) (h : Bool) (s : State), Attends p s →
    s.cls p = .printer → (s.takes.get p).state = .pending w h → (w = .held ∨ w = .job) →
    ∀ j, (s.printers.get p).inflight = some j →
    ∃ t, exec (.printEnd p o n) s = .next (finish s t)
      ∧ t.takes.get p = ⟨.staffHold, (s.takes.get p).shield⟩
      ∧ t.printers.get p = { s.printers.get p with
          inflight := none, gap := endOf s (millis (s.configs.get p).gapMs) }
      ∧ t.streams.get p = none
      ∧ (s.holder p ≠ some j.kiosk → Queued (.kiosk j.kiosk) (endTold p j o n) t)
      ∧ Queued .staff (.takeState p .staffHold (s.shieldLeft p)) t
      ∧ Only (theseTold ([.takeover p, .claims p, .printer p, .stream p] ++ heard p) fun _ => True) s t)
  ∧
  (∀ (p : PortId) (o : Byte) (n : Half) (s : State), Attends p s →
    (s.cls p = .printer → (s.printers.get p).inflight = none) →
    ∃ t, exec (.printEnd p o n) s = .next (finish s t)
      ∧ Only (these (heard p)) s t)
  ∧
  (∀ (p : PortId) (s : State), due s.tick (s.printers.get p).gap = true →
    (s.printers.get p).inflight = none → s.cond p = .serving →
    (s.power.get p).reached = some .ready → (s.takes.get p).state = .free →
    ∀ i, (servingOrder (s.configs.get p).queueMode (s.printers.get p).queue).head? = some i →
    ∃ t, exec (.gapExpiry p) s = .next (finish s t)
      ∧ t.printers.get p = ⟨(s.printers.get p).queue.filter fun q => q.id != i.id,
          some { i with state := .starting }, none⟩
      ∧ (t.wires.get p).commands =
          (s.wires.get p).commands ++ [.printStart i.id i.copies i.pages i.options]
      ∧ .printStart ∈ (t.ctls.get p).waits
      ∧ Queued (.kiosk i.kiosk) (jobTold p i (.live .starting) false) t
      ∧ Only (theseTold [.printer p, .stream p, .commands p, .waits p] (· = .kiosk i.kiosk)) s t)
  ∧
  (∀ (p : PortId) (s : State), due s.tick (s.printers.get p).gap = true →
    ((s.printers.get p).inflight ≠ none ∨ s.cond p ≠ .serving
      ∨ (s.power.get p).reached ≠ some .ready ∨ (s.takes.get p).state ≠ .free
      ∨ (s.printers.get p).queue = []) →
    ∃ t, exec (.gapExpiry p) s = .next (finish s t)
      ∧ t.printers.get p = { s.printers.get p with gap := none }
      ∧ Only (these [.printer p]) s t)
  ∧
  ∀ (p : PortId) (s : State), due s.tick (s.printers.get p).gap = false →
    ∃ t, exec (.gapExpiry p) s = .next (finish s t)
      ∧ t = s

/-- FAULT stalls a SERVING port, a job in flight and the clock of its kiosk, and marks a running check
(08_device_ports_and_adapters.md, Faults and clearing, 03_print_jobs.md, Faults and jams). From an attended
adapter, with no check running on the port: FAULT on a SERVING port completes with the port STALLED for
cause FAULT, the fault kind held, a contact table cleared and PORT_STATE handed over (read where no contact
of the port is the staff's), and a job in flight STARTING, PRINTING or ENDING on a printer without a take
pending on HELD is STALLED with its state as resume state, the fault outstanding and a JAM counted up to
255, its kiosk is handed JOB_STATE STALLED with the fault, and its PULL stream has the stall deadline frozen
and absent. On a STALLED port the fault kind is replaced, PORT_STATE is handed over, and a STALLED or HELD
job keeps its state and its kiosk is handed JOB_STATE. In CHECKING the fault is held, the mechanism is FAIL
and the first fault is kept. In IDENTIFYING and RESETTING, without a job in flight, it is a sign of life
only. -/
def Obligations.FaultStallsPortAndJob : Prop :=
  (∀ (p : PortId) (b : Byte) (s : State), Attends p s → s.cond p = .serving → s.checkRunning p = false →
    (s.takes.get p).state ≠ .pending .held false → (s.takes.get p).state ≠ .pending .held true →
    ∃ t, exec (.fault p b) s = .next (finish s t)
      ∧ t.cond p = .stalled ∧ (t.ctls.get p).fault = some (faultOf b) ∧ (t.ctls.get p).cause = .fault
      ∧ (t.ctls.get p).identity = (s.ctls.get p).identity
      ∧ (t.panels.get p).contacts = []
      ∧ ((∀ c ∈ (s.panels.get p).contacts, c.dest ≠ .link .staff) →
          Queued .staff (.portState
            { port := p, cls := s.cls p, cond := .stalled, before := .serving, cause := .fault
              fault := some (faultOf b), identity := (s.ctls.get p).identity, reportedClass := none }) t)
      ∧ (s.cls p = .printer → ∀ j ∈ (s.printers.get p).inflight,
          (j.state = .starting ∨ j.state = .printing ∨ j.state = .ending) →
          (t.printers.get p).inflight = some { j with
              state := .stalled, resume := resumeOf j, fault := some (faultOf b)
              jams := if faultOf b = .jam then min 255 (j.jams + 1) else j.jams }
            ∧ Queued (.kiosk j.kiosk) (.jobState
                { id := j.id, tag := j.tag, port := p, report := .live .stalled, printed := j.printed
                  fault := some (faultOf b), byStaff := false }) t
            ∧ ∀ x, s.streams.get p = some x → x.direction = .pull → t.streams.get p =
                some { x with forwardHeld := false, stallFrozen := true, stall := none })
      ∧ Only (theseTold ([.condition p, .printer p, .stream p] ++ heard p) fun _ => True) s t)
  ∧
  (∀ (p : PortId) (b : Byte) (s : State), Attends p s → s.cond p = .stalled →
    (∀ j ∈ (s.printers.get p).inflight, j.state = .stalled ∨ j.state = .held) →
    ∃ t, exec (.fault p b) s = .next (finish s t)
      ∧ t.cond p = .stalled ∧ (t.ctls.get p).fault = some (faultOf b)
      ∧ (t.ctls.get p).cause = (s.ctls.get p).cause
      ∧ Queued .staff (.portState
          { port := p, cls := s.cls p, cond := .stalled, before := .stalled, cause := .fault
            fault := some (faultOf b), identity := (s.ctls.get p).identity, reportedClass := none }) t
      ∧ (s.cls p = .printer → ∀ j ∈ (s.printers.get p).inflight,
          (t.printers.get p).inflight = some { j with
              fault := some (faultOf b)
              jams := if faultOf b = .jam then min 255 (j.jams + 1) else j.jams }
            ∧ Queued (.kiosk j.kiosk) (.jobState
                { id := j.id, tag := j.tag, port := p, report := .live j.state, printed := j.printed
                  fault := some (faultOf b), byStaff := false }) t)
      ∧ (s.cls p ≠ .printer → t.printers.get p = s.printers.get p)
      ∧ Only (theseTold ([.condition p, .printer p, .stream p] ++ heard p) fun l => l = .staff
          ∨ ∃ j ∈ (s.printers.get p).inflight, l = .kiosk j.kiosk) s t)
  ∧
  (∀ (p : PortId) (b : Byte) (s : State), Attends p s → s.cond p = .checking →
    (s.printers.get p).inflight = none →
    ∃ t, exec (.fault p b) s = .next (finish s t)
      ∧ t.cond p = .checking ∧ (t.ctls.get p).fault = some (faultOf b)
      ∧ (t.ctls.get p).check = { (s.ctls.get p).check with
          mechanism := .fail
          fault := if (s.ctls.get p).check.fault = none then some (faultOf b)
            else (s.ctls.get p).check.fault }
      ∧ Queued .staff (.portState
          { port := p, cls := s.cls p, cond := .checking, before := .checking, cause := .fault
            fault := some (faultOf b), identity := (s.ctls.get p).identity, reportedClass := none }) t
      ∧ Only (theseTold ([.condition p, .check p] ++ heard p) (· = .staff)) s t)
  ∧
  ∀ (p : PortId) (b : Byte) (s : State), Attends p s → (s.cond p = .identifying ∨ s.cond p = .resetting) →
    (s.cls p = .printer → (s.printers.get p).inflight = none) →
    ∃ t, exec (.fault p b) s = .next (finish s t)
      ∧ Only (these (heard p)) s t

/-- CLEARED returns a STALLED port to SERVING, and resumes its job or gives it up as the port's settings say
(08_device_ports_and_adapters.md, Faults and clearing, 03_print_jobs.md, Faults and jams). From an attended
adapter of a STALLED port with no check running, CLEARED completes with the port SERVING for cause CLEARED
and no fault held. With a STALLED job in flight on a printer: after an abort was sent, or with jams within
the jam limit and auto-resume on, the job is back in its resume state with no fault outstanding; with more
jams than the limit it is aborted JAM_LIMIT, and else with auto-resume off JAM for a jam and DEVICE for
another fault, staying STALLED with PRINT_ABORT sent and its stream closed. Without a job in flight and
without a queue nothing else changes, and in IDENTIFYING, SERVING and RESETTING without a job CLEARED is a
sign of life only. Which job CLEARED reaches, and CLEARED with no fault outstanding, are the model's reading
(logs 17, 40). -/
def Obligations.ClearedResumesOrGivesUp : Prop :=
  (∀ (p : PortId) (s : State), Attends p s → s.cond p = .stalled → s.checkRunning p = false →
    s.cls p = .printer → ∀ j, (s.printers.get p).inflight = some j → j.state = .stalled →
    (j.abortSent = true ∨ (j.jams ≤ (s.configs.get p).jamLimit ∧ (s.configs.get p).autoResume = true)) →
    ∃ t, exec (.cleared p) s = .next (finish s t)
      ∧ t.cond p = .serving ∧ (t.ctls.get p).fault = none ∧ (t.ctls.get p).cause = .cleared
      ∧ (t.ctls.get p).identity = (s.ctls.get p).identity
      ∧ t.printers.get p = { s.printers.get p with inflight := some { j with
          fault := none, state := resumed j.resume, resume := none } }
      ∧ Queued (.kiosk j.kiosk) (jobTold p j (.live (resumed j.resume)) false) t
      ∧ Only (theseTold ([.condition p, .printer p, .stream p] ++ heard p)
          fun l => l = .staff ∨ l = .kiosk j.kiosk) s t)
  ∧
  (∀ (p : PortId) (s : State), Attends p s → s.cond p = .stalled → s.checkRunning p = false →
    s.cls p = .printer → ∀ j, (s.printers.get p).inflight = some j → j.state = .stalled →
    j.abortSent = false →
    ((s.configs.get p).jamLimit < j.jams ∨ (s.configs.get p).autoResume = false) →
    ∃ t, exec (.cleared p) s = .next (finish s t)
      ∧ t.cond p = .serving ∧ (t.ctls.get p).fault = none ∧ (t.ctls.get p).cause = .cleared
      ∧ t.printers.get p = { s.printers.get p with inflight := some { j with
          fault := none, abortSent := true
          abortCause := some (.failed (if (s.configs.get p).jamLimit < j.jams then .jamLimit
            else if j.fault = some .jam then .jam else .device)) } }
      ∧ t.streams.get p = none
      ∧ (t.wires.get p).commands = (s.wires.get p).commands ++ [.printAbort]
      ∧ Only (theseTold ([.condition p, .printer p, .stream p, .commands p] ++ heard p)
          (· = .staff)) s t)
  ∧
  (∀ (p : PortId) (s : State), Attends p s → s.cond p = .stalled → s.checkRunning p = false →
    (s.printers.get p).inflight = none → (s.printers.get p).queue = [] →
    ∃ t, exec (.cleared p) s = .next (finish s t)
      ∧ t.cond p = .serving ∧ (t.ctls.get p).fault = none ∧ (t.ctls.get p).cause = .cleared
      ∧ (t.ctls.get p).identity = (s.ctls.get p).identity
      ∧ Queued .staff (.portState
          { port := p, cls := s.cls p, cond := .serving, before := .stalled, cause := .cleared
            fault := none, identity := (s.ctls.get p).identity, reportedClass := none }) t
      ∧ Only (theseTold (.condition p :: heard p) (· = .staff)) s t)
  ∧
  ∀ (p : PortId) (s : State), Attends p s →
    (s.cond p = .identifying ∨ s.cond p = .serving ∨ s.cond p = .resetting) →
    (s.cls p = .printer → (s.printers.get p).inflight = none) →
    ∃ t, exec (.cleared p) s = .next (finish s t)
      ∧ Only (these (heard p)) s t

/-- A SCAN that passes its checks starts, and the first failing check of another decides its code
(04_scanning.md, SCAN from a kiosk, 04_scanning.md, SCAN from the staff console, 04_scanning.md, Starting
the scan, 01_claims_and_grants.md, Idle expiry). For a listening, admitted kiosk that holds a scanner in
reach and is not suspended, in an OPEN hall, with a mode CODE or IMAGE, the port SERVING at READY and no
scan in flight, SCAN completes: the scan record is STARTING with the kiosk as requester, the resolution
clamped into 100 to 600 and rounded down to a multiple of 50, the credit clamped into 1 to 4, and the
current tick; SCAN_START is sent and its wait begins; the holder's idle deadline is absent; and the reply is
OK with the clamped values. For a listening staff link and a scanner in STAFF_HOLD under the same port
conditions, SCAN completes in the same way for STAFF, and no claim changes. For a listening, admitted kiosk
that reaches a scanner, when one of the Scan Controller's seven checks fails, SCAN is refused CLOSING,
BAD_VALUE, NOT_HOLDER, SUSPENDED, PORT_FAULT, POWER_HELD or BUSY, in that order of precedence; a holder's
own refused SCAN re-arms its idle deadline unless it is suspended or its own scan is in flight, and nothing
else changes. A SCAN of a listening staff link for a scanner is refused BAD_VALUE, NOT_HOLDER outside
STAFF_HOLD, PORT_FAULT, POWER_HELD or BUSY in the same way, and nothing changes. -/
def Obligations.ScanStartsOrIsRefused : Prop :=
  (∀ (k : KioskId) (p : PortId) (b : ScanBody) (m : ScanMode) (s : State),
    portOf b.port = some p → Listens (.kiosk k) s → MayUse k p scannable s → s.hall = .openHall →
    scanModeOf b.mode = some m → ListOrdered (s.claims.get p) →
    (∀ c, holderOf (s.claims.get p) = some c → c.suspended = false) → s.holder p = some k →
    s.cond p = .serving → (s.power.get p).reached = some .ready → (s.scanners.get p).scan = none →
    ∃ t, exec (.scan k (.fields b)) s = .next (finish s t)
      ∧ t.scanners.get p = { s.scanners.get p with scan := some (startedScan s (.kiosk k) m b) }
      ∧ t.claims.get p = withHolder (fun c => { c with deadline := none }) (s.claims.get p)
      ∧ (t.wires.get p).commands = (s.wires.get p).commands ++
          [.scanStart m (startedScan s (.kiosk k) m b).resolution]
      ∧ .scanStart ∈ (t.ctls.get p).waits
      ∧ Replies (.kiosk k) Kind.scan .ok
          (.scanStarted (startedScan s (.kiosk k) m b).resolution (startedScan s (.kiosk k) m b).credit) t
      ∧ Only (these ([.claims p, .scanner p, .waits p, .commands p] ++ asked (.kiosk k))) s t)
  ∧
  (∀ (p : PortId) (b : ScanBody) (m : ScanMode) (s : State),
    portOf b.port = some p → Listens .staff s → s.cls p = .scanner → scanModeOf b.mode = some m →
    (s.takes.get p).state = .staffHold → s.cond p = .serving →
    (s.power.get p).reached = some .ready → (s.scanners.get p).scan = none →
    ∃ t, exec (.staffScan (.fields b)) s = .next (finish s t)
      ∧ t.scanners.get p = { s.scanners.get p with scan := some (startedScan s .staff m b) }
      ∧ (t.wires.get p).commands = (s.wires.get p).commands ++
          [.scanStart m (startedScan s .staff m b).resolution]
      ∧ .scanStart ∈ (t.ctls.get p).waits
      ∧ Replies .staff Kind.scan .ok
          (.scanStarted (startedScan s .staff m b).resolution (startedScan s .staff m b).credit) t
      ∧ Only (these ([.scanner p, .waits p, .commands p] ++ asked .staff)) s t)
  ∧
  (∀ (k : KioskId) (p : PortId) (b : ScanBody) (s : State),
    portOf b.port = some p → Listens (.kiosk k) s → MayUse k p scannable s →
    (s.hall ≠ .openHall ∨ scanModeOf b.mode = none ∨ s.holder p ≠ some k
      ∨ (holderOf (s.claims.get p)).any (·.suspended) = true ∨ s.cond p ≠ .serving
      ∨ (s.power.get p).reached ≠ some .ready ∨ (s.scanners.get p).scan ≠ none) →
    ∃ t, exec (.scan k (.fields b)) s = .next (finish s t)
      ∧ Replies (.kiosk k) Kind.scan
          (if s.hall ≠ .openHall then .closing
           else if scanModeOf b.mode = none then .badValue
           else if s.holder p ≠ some k then .notHolder
           else if (holderOf (s.claims.get p)).any (·.suspended) = true then .suspended
           else if s.cond p ≠ .serving then .portFault
           else if (s.power.get p).reached ≠ some .ready then .powerHeld
           else .busy) .bare t
      ∧ t.claims.get p = (if s.holder p = some k then
          (s.claims.get p).map fun c => if c.role = .holder then
            { c with deadline := if c.suspended then none else armedFor s p c.kiosk } else c
          else s.claims.get p)
      ∧ Only (these (.claims p :: asked (.kiosk k))) s t)
  ∧
  ∀ (p : PortId) (b : ScanBody) (s : State),
    portOf b.port = some p → Listens .staff s → s.cls p = .scanner →
    (scanModeOf b.mode = none ∨ (s.takes.get p).state ≠ .staffHold ∨ s.cond p ≠ .serving
      ∨ (s.power.get p).reached ≠ some .ready ∨ (s.scanners.get p).scan ≠ none) →
    ∃ t, exec (.staffScan (.fields b)) s = .next (finish s t)
      ∧ Replies .staff Kind.scan
          (if scanModeOf b.mode = none then .badValue
           else if (s.takes.get p).state ≠ .staffHold then .notHolder
           else if s.cond p ≠ .serving then .portFault
           else if (s.power.get p).reached ≠ some .ready then .powerHeld
           else .busy) .bare t
      ∧ Only (these (asked .staff)) s t

/-- SCAN_STOP aborts the requester's own scan STOPPED, and is answered stopped no where there is none to
stop (04_scanning.md, SCAN_STOP, 04_scanning.md, Aborting a scan, 04_scanning.md, How a scan leaves flight).
For a listening, admitted kiosk that holds a scanner in reach and is not suspended, SCAN_STOP completes as
follows. Its own scan STARTING or SCANNING with abort not sent keeps its state with abort sent, reason
STOPPED and its result given, the stream is closed, SCAN_ABORT is sent, SCAN_RESULT ABORTED STOPPED is
handed to it, the reply is OK stopped yes, and its idle deadline stays frozen. Its own scan ENDING leaves
flight at once with that result and without SCAN_ABORT, and its idle deadline is armed afresh, on a port in
takeover state NONE whose holder is not marked closing. In any other case the reply is OK stopped no and
only the idle deadline changes. A kiosk that is not the holder is refused NOT_HOLDER, a suspended holder
SUSPENDED. From the staff console, a staff scan on a port in STAFF_HOLD is aborted in the same way where it
is STARTING or SCANNING and leaves flight in the same way where it is ENDING, the result going to the staff
link and no claim changing; another port is refused NOT_HOLDER, and else the reply is OK stopped no. That the
staff console's OK reply carries stopped is the model's reading (log 50). -/
def Obligations.ScanStopAbortsTheScan : Prop :=
  (∀ (k : KioskId) (p : PortId) (b : Byte) (s : State),
    portOf b = some p → Listens (.kiosk k) s → MayUse k p scannable s →
    (∀ c, holderOf (s.claims.get p) = some c → c.suspended = false) → s.holder p = some k →
    ∀ x, (s.scanners.get p).scan = some x → x.requester = .kiosk k → x.abortSent = false →
    x.state ≠ .ending →
    ∃ t, exec (.scanStop k (.fields b)) s = .next (finish s t)
      ∧ (t.scanners.get p).scan =
          some { x with abortSent := true, reason := some .stopped, code := none, resultGiven := true }
      ∧ t.streams.get p = none
      ∧ (t.wires.get p).commands = (s.wires.get p).commands ++ [.scanAbort]
      ∧ Queued (.kiosk k) (.scanResult
          { port := p, reason := some .stopped, mode := x.mode, code := none
            forwarded := if x.mode = .image then some x.forwarded else none, reported := none
            started := x.started }) t
      ∧ t.claims.get p = afterActivity s p (.kiosk k)
      ∧ Replies (.kiosk k) Kind.scanStop .ok (.scanStopped true) t
      ∧ Only (theseTold ([.claims p, .scanner p, .stream p, .waits p, .commands p] ++ asked (.kiosk k))
          (· = .kiosk k)) s t)
  ∧
  (∀ (k : KioskId) (p : PortId) (b : Byte) (s : State),
    portOf b = some p → Listens (.kiosk k) s → MayUse k p scannable s → ListOrdered (s.claims.get p) →
    (∀ c, holderOf (s.claims.get p) = some c → c.suspended = false ∧ c.closing = false) →
    s.holder p = some k → (s.takes.get p).state = .free →
    ∀ x, (s.scanners.get p).scan = some x → x.requester = .kiosk k → x.abortSent = false →
    x.state = .ending →
    ∃ t, exec (.scanStop k (.fields b)) s = .next (finish s t)
      ∧ (t.scanners.get p).scan = none
      ∧ t.streams.get p = none
      ∧ t.claims.get p = withHolder
          (fun c => { c with deadline := endOf s (seconds (s.configs.get p).idleS) }) (s.claims.get p)
      ∧ Queued (.kiosk k) (.scanResult
          { port := p, reason := some .stopped, mode := x.mode, code := none
            forwarded := if x.mode = .image then some x.forwarded else none, reported := none
            started := x.started }) t
      ∧ Replies (.kiosk k) Kind.scanStop .ok (.scanStopped true) t
      ∧ Only (theseTold ([.claims p, .scanner p, .stream p, .waits p] ++ asked (.kiosk k))
          (· = .kiosk k)) s t)
  ∧
  (∀ (k : KioskId) (p : PortId) (b : Byte) (s : State),
    portOf b = some p → Listens (.kiosk k) s → MayUse k p scannable s →
    (s.holder p ≠ some k ∨ (holderOf (s.claims.get p)).any (·.suspended) = true
      ∨ ∀ x ∈ (s.scanners.get p).scan, x.requester ≠ .kiosk k ∨ x.abortSent = true) →
    ∃ t, exec (.scanStop k (.fields b)) s = .next (finish s t)
      ∧ (s.holder p ≠ some k → Replies (.kiosk k) Kind.scanStop .notHolder .bare t)
      ∧ (s.holder p = some k → (holderOf (s.claims.get p)).any (·.suspended) = true →
          Replies (.kiosk k) Kind.scanStop .suspended .bare t)
      ∧ (s.holder p = some k → (holderOf (s.claims.get p)).any (·.suspended) = false →
          Replies (.kiosk k) Kind.scanStop .ok (.scanStopped false) t)
      ∧ t.claims.get p = (if s.holder p = some k then
          (s.claims.get p).map fun c => if c.role = .holder then
            { c with deadline := if c.suspended then none else armedFor s p c.kiosk } else c
          else s.claims.get p)
      ∧ Only (these (.claims p :: asked (.kiosk k))) s t)
  ∧
  (∀ (p : PortId) (b : Byte) (s : State),
    portOf b = some p → Listens .staff s → s.cls p = .scanner → (s.takes.get p).state = .staffHold →
    ∀ x, (s.scanners.get p).scan = some x → x.requester = .staff → x.abortSent = false →
    x.state ≠ .ending →
    ∃ t, exec (.staffScanStop (.fields b)) s = .next (finish s t)
      ∧ (t.scanners.get p).scan =
          some { x with abortSent := true, reason := some .stopped, code := none, resultGiven := true }
      ∧ t.streams.get p = none
      ∧ (t.wires.get p).commands = (s.wires.get p).commands ++ [.scanAbort]
      ∧ Queued .staff (.scanResult
          { port := p, reason := some .stopped, mode := x.mode, code := none
            forwarded := if x.mode = .image then some x.forwarded else none, reported := none
            started := x.started }) t
      ∧ Replies .staff Kind.scanStop .ok (.scanStopped true) t
      ∧ Only (theseTold ([.scanner p, .stream p, .waits p, .commands p] ++ asked .staff)
          (· = .staff)) s t)
  ∧
  (∀ (p : PortId) (b : Byte) (s : State),
    portOf b = some p → Listens .staff s → s.cls p = .scanner → (s.takes.get p).state = .staffHold →
    ∀ x, (s.scanners.get p).scan = some x → x.requester = .staff → x.abortSent = false →
    x.state = .ending →
    ∃ t, exec (.staffScanStop (.fields b)) s = .next (finish s t)
      ∧ (t.scanners.get p).scan = none
      ∧ t.streams.get p = none
      ∧ Queued .staff (.scanResult
          { port := p, reason := some .stopped, mode := x.mode, code := none
            forwarded := if x.mode = .image then some x.forwarded else none, reported := none
            started := x.started }) t
      ∧ Replies .staff Kind.scanStop .ok (.scanStopped true) t
      ∧ Only (theseTold ([.scanner p, .stream p, .waits p] ++ asked .staff) (· = .staff)) s t)
  ∧
  ∀ (p : PortId) (b : Byte) (s : State),
    portOf b = some p → Listens .staff s → s.cls p = .scanner →
    ((s.takes.get p).state ≠ .staffHold
      ∨ ∀ x ∈ (s.scanners.get p).scan, x.requester ≠ .staff ∨ x.abortSent = true) →
    ∃ t, exec (.staffScanStop (.fields b)) s = .next (finish s t)
      ∧ ((s.takes.get p).state ≠ .staffHold → Replies .staff Kind.scanStop .notHolder .bare t)
      ∧ ((s.takes.get p).state = .staffHold → Replies .staff Kind.scanStop .ok (.scanStopped false) t)
      ∧ Only (these (asked .staff)) s t

/-- SCAN_ACCEPT starts the reading, SCAN_CODE keeps the last code, and DOC_SENSE tells the holder of a
changed document (04_scanning.md, Starting the scan, 04_scanning.md, Code scans, 04_scanning.md, The
document sensor, 07_streams_and_kiosk_delivery.md, The stream record). From an attended adapter of a scanner
port: SCAN_ACCEPT for a STARTING scan not being aborted completes with the scan SCANNING, and in IMAGE mode
with a PUSH stream to the requester with the scan's credit as sink credit and all four credits owed, in CODE
mode with no stream; for any other scan or none it is a sign of life only. SCAN_CODE with a text of 1 to 64
bytes completes with the code kept for a CODE scan that is SCANNING and not being aborted, and is else a
sign of life only, as is one with an empty or a longer text. DOC_SENSE completes with the document state as
its bit 0 says; a change is told to a holder in DOC_STATE, and without a change it is a sign of life only. -/
def Obligations.ScanFramesAreTaken : Prop :=
  (∀ (p : PortId) (s : State), Attends p s → s.cls p = .scanner →
    ∀ x, (s.scanners.get p).scan = some x → x.state = .starting → x.abortSent = false →
    ∃ t, exec (.scanAccept p) s = .next (finish s t)
      ∧ t.scanners.get p = { s.scanners.get p with scan := some { x with state := .scanning } }
      ∧ t.streams.get p = (if x.mode = .image then
          some ⟨.push, x.requester, 0, 0, 4, x.credit, [], false, false, false, none⟩
          else s.streams.get p)
      ∧ .scanStart ∉ (t.ctls.get p).waits ∧ .scanProgress ∈ (t.ctls.get p).waits
      ∧ Only (these ([.scanner p, .stream p] ++ heard p)) s t)
  ∧
  (∀ (p : PortId) (s : State), Attends p s →
    (s.cls p = .scanner → ∀ x ∈ (s.scanners.get p).scan, x.state ≠ .starting ∨ x.abortSent = true) →
    ∃ t, exec (.scanAccept p) s = .next (finish s t)
      ∧ Only (these (heard p)) s t)
  ∧
  (∀ (p : PortId) (y : Byte) (text : List Byte) (s : State), Attends p s → s.cls p = .scanner →
    1 ≤ text.length → text.length ≤ 64 →
    ∀ x, (s.scanners.get p).scan = some x → x.mode = .code → x.state = .scanning →
    x.abortSent = false →
    ∃ t, exec (.scanCode p y text) s = .next (finish s t)
      ∧ t.scanners.get p = { s.scanners.get p with scan := some { x with code := some ⟨y, text⟩ } }
      ∧ Only (these (.scanner p :: heard p)) s t)
  ∧
  (∀ (p : PortId) (y : Byte) (text : List Byte) (s : State), Attends p s →
    (s.cls p = .scanner → 1 ≤ text.length → text.length ≤ 64 → ∀ x ∈ (s.scanners.get p).scan,
      x.mode ≠ .code ∨ x.state ≠ .scanning ∨ x.abortSent = true) →
    ∃ t, exec (.scanCode p y text) s = .next (finish s t)
      ∧ Only (these (heard p)) s t)
  ∧
  (∀ (p : PortId) (f : Byte) (s : State), Attends p s → s.cls p = .scanner →
    f.getLsbD 0 ≠ (s.scanners.get p).document →
    ∃ t, exec (.docSense p f) s = .next (finish s t)
      ∧ t.scanners.get p = { s.scanners.get p with document := f.getLsbD 0 }
      ∧ (∀ k, s.holder p = some k → Queued (.kiosk k) (.docState p (f.getLsbD 0)) t)
      ∧ Only (theseTold (.scanner p :: heard p) fun l => ∃ k ∈ s.holder p, l = .kiosk k) s t)
  ∧
  ∀ (p : PortId) (f : Byte) (s : State), Attends p s →
    (s.cls p = .scanner → f.getLsbD 0 = (s.scanners.get p).document) →
    ∃ t, exec (.docSense p f) s = .next (finish s t)
      ∧ Only (these (heard p)) s t

/-- SCAN_END takes the scan out of flight with its result, or lets the buffered chunks of an image scan
drain first (04_scanning.md, How a scan leaves flight, 04_scanning.md, Code scans, 04_scanning.md, Image
scans, 04_scanning.md, Aborting a scan, 04_scanning.md, Scan results, 02_staff_takeover_and_hall_closing.md,
The pending take, 02_staff_takeover_and_hall_closing.md, Closing). From an attended adapter of a scanner
port, with no take pending on the scan and no holder marked closing, SCAN_END completes as follows. A scan
whose abort has been sent leaves flight, and nothing is handed to its requester. One whose abort has not
been sent leaves flight with SCAN_RESULT handed to the requester: DONE with the last code for a CODE scan;
DONE with the bytes forwarded and reported for an IMAGE scan STARTING, or SCANNING with no chunk buffered;
and ABORTED DEVICE for the outcome ABORTED. Leaving flight closes the stream, clears the record, and arms
the holder's idle deadline when the scan was its own and it is not suspended. Where a take is pending on the
scan, the port becomes STAFF_HOLD, told in TAKE_STATE, and a holder that is not marked closing is suspended
and told so. Where the scan's requester is the holder and marked closing, in a hall not OPEN and an ordered
list, its record leaves, CLAIM_STATE ENDED CLOSING is handed to it and nobody is promoted; a take pending on
the scan completes here too (results read in a queue that the event's other notices cannot overflow). An
IMAGE scan SCANNING with chunks buffered becomes ENDING with the bytes reported, and its source has ended; a
further DONE in ENDING changes nothing. Without a scan in flight SCAN_END is a sign of life only. -/
def Obligations.ScanEndEndsTheScan : Prop :=
  (∀ (p : PortId) (o : Byte) (n : BitVec 32) (s : State), Attends p s → s.cls p = .scanner →
    (∀ c, holderOf (s.claims.get p) = some c → c.closing = false) →
    (∀ h, (s.takes.get p).state ≠ .pending .scan h) →
    ∀ x, (s.scanners.get p).scan = some x → x.abortSent = true →
    ∃ t, exec (.scanEnd p o n) s = .next (finish s t)
      ∧ (x.resultGiven = true → t.scanners.get p = { s.scanners.get p with scan := none })
      ∧ t.streams.get p = none
      ∧ t.claims.get p = afterScan s p x
      ∧ Only (these ([.claims p, .scanner p, .stream p] ++ heard p)) s t)
  ∧
  (∀ (p : PortId) (o : Byte) (n : BitVec 32) (s : State), Attends p s → s.cls p = .scanner →
    (∀ c, holderOf (s.claims.get p) = some c → c.closing = false) →
    (∀ h, (s.takes.get p).state ≠ .pending .scan h) →
    ∀ x, (s.scanners.get p).scan = some x → x.abortSent = false → x.reason = none → LeavesNow s p x o →
    ∃ t, exec (.scanEnd p o n) s = .next (finish s t)
      ∧ t.scanners.get p = { s.scanners.get p with scan := none }
      ∧ t.streams.get p = none
      ∧ t.claims.get p = afterScan s p x
      ∧ Queued x.requester (scanTold p x o n) t
      ∧ Only (theseTold ([.claims p, .scanner p, .stream p] ++ heard p) (· = x.requester)) s t)
  ∧
  (∀ (p : PortId) (o : Byte) (n : BitVec 32) (h : Bool) (s : State), Attends p s → s.cls p = .scanner →
    (∀ c, holderOf (s.claims.get p) = some c → c.closing = false) →
    (s.takes.get p).state = .pending .scan h →
    ∀ x, (s.scanners.get p).scan = some x → x.abortSent = false → x.reason = none → LeavesNow s p x o →
    ∃ t, exec (.scanEnd p o n) s = .next (finish s t)
      ∧ t.scanners.get p = { s.scanners.get p with scan := none }
      ∧ t.streams.get p = none
      ∧ t.takes.get p = ⟨.staffHold, (s.takes.get p).shield⟩
      ∧ t.claims.get p =
          withHolder (fun c => { c with suspended := true, deadline := none }) (s.claims.get p)
      ∧ (∀ k, s.holder p = some k → Queued (.kiosk k) (.claimState p .suspended) t)
      ∧ Queued .staff (.takeState p .staffHold (s.shieldLeft p)) t
      ∧ (HasSlack x.requester s → Queued x.requester (scanTold p x o n) t)
      ∧ Only (theseTold ([.takeover p, .claims p, .scanner p, .stream p] ++ heard p) fun _ => True) s t)
  ∧
  (∀ (p : PortId) (o : Byte) (n : BitVec 32) (s : State), Attends p s → s.cls p = .scanner →
    s.hall ≠ .openHall → ListOrdered (s.claims.get p) →
    ∀ c, holderOf (s.claims.get p) = some c → c.closing = true →
    ∀ x, (s.scanners.get p).scan = some x → x.requester = .kiosk c.kiosk → x.abortSent = false →
    x.reason = none → LeavesNow s p x o →
    ∃ t, exec (.scanEnd p o n) s = .next (finish s t)
      ∧ t.scanners.get p = { s.scanners.get p with scan := none }
      ∧ t.streams.get p = none
      ∧ t.claims.get p = (s.claims.get p).filter (fun d => d.kiosk != c.kiosk)
      ∧ (∀ h, (s.takes.get p).state = .pending .scan h →
          t.takes.get p = ⟨.staffHold, (s.takes.get p).shield⟩
            ∧ Queued .staff (.takeState p .staffHold (s.shieldLeft p)) t)
      ∧ ((∀ h, (s.takes.get p).state ≠ .pending .scan h) → t.takes.get p = s.takes.get p)
      ∧ Queued (.kiosk c.kiosk) (.claimState p (.ended .closing)) t
      ∧ (HasSlack (.kiosk c.kiosk) s → Queued (.kiosk c.kiosk) (scanTold p x o n) t)
      ∧ Only (theseTold ([.takeover p, .claims p, .scanner p, .stream p] ++ heard p)
          fun l => l = .staff ∨ l = .kiosk c.kiosk) s t)
  ∧
  (∀ (p : PortId) (n : BitVec 32) (s : State), Attends p s → s.cls p = .scanner →
    ∀ x, (s.scanners.get p).scan = some x → x.abortSent = false → x.mode = .image →
    x.state = .scanning → ∀ y, s.streams.get p = some y → y.buffers ≠ [] →
    ∃ t, exec (.scanEnd p 0 n) s = .next (finish s t)
      ∧ t.scanners.get p =
          { s.scanners.get p with scan := some { x with state := .ending, reported := some n } }
      ∧ (t.streams.get p).map (fun z => { z with stall := none }) =
          some { y with sourceEnded := true, stall := none }
      ∧ Only (these ([.scanner p, .stream p] ++ heard p)) s t)
  ∧
  (∀ (p : PortId) (n : BitVec 32) (s : State), Attends p s → s.cls p = .scanner →
    ∀ x, (s.scanners.get p).scan = some x → x.abortSent = false → x.mode = .image →
    x.state = .ending →
    ∃ t, exec (.scanEnd p 0 n) s = .next (finish s t)
      ∧ Only (these (heard p)) s t)
  ∧
  ∀ (p : PortId) (o : Byte) (n : BitVec 32) (s : State), Attends p s →
    (s.cls p = .scanner → (s.scanners.get p).scan = none) →
    ∃ t, exec (.scanEnd p o n) s = .next (finish s t)
      ∧ Only (these (heard p)) s t

/-- The transform puts every touch on the nearest position of the output and in its zone of the grid
(05_touch_panels_coordinates_and_contacts.md, The coordinate transform). For every calibration record in its
ranges and every raw position, the transform gives a position within the output and a zone below C times G,
so at most 255. Before inversion each coordinate is the whole number nearest to the scaled one, a half going
up: 2 dx u is at most 2a + dx, which is below 2 dx (u + 1), where a is (xc - x_min)(W - 1) and xc is the
coordinate after the swap, clamped into the calibrated edges. The column is x times C over W and the row y
times G over H, rounded down, and EDGE says whether clamping changed a coordinate. -/
def Obligations.TransformPlacesEveryTouch : Prop :=
  ∀ (c : Calibration) (rawX rawY : Nat), c.inRange = true →
    (transform c rawX rawY).x < c.width ∧ (transform c rawX rawY).y < c.height
      ∧ (transform c rawX rawY).zone < c.cols * c.rows ∧ (transform c rawX rawY).zone ≤ 255
      ∧ (∀ x xc u, x = (if c.swap then rawY else rawX) → xc = max c.xMin (min c.xMax x) →
          u = (if c.invertX then c.width - 1 - (transform c rawX rawY).x
            else (transform c rawX rawY).x) →
          2 * (c.xMax - c.xMin) * u ≤ 2 * ((xc - c.xMin) * (c.width - 1)) + (c.xMax - c.xMin)
            ∧ 2 * ((xc - c.xMin) * (c.width - 1)) + (c.xMax - c.xMin)
              < 2 * (c.xMax - c.xMin) * (u + 1))
      ∧ (∀ y yc v, y = (if c.swap then rawX else rawY) → yc = max c.yMin (min c.yMax y) →
          v = (if c.invertY then c.height - 1 - (transform c rawX rawY).y
            else (transform c rawX rawY).y) →
          2 * (c.yMax - c.yMin) * v ≤ 2 * ((yc - c.yMin) * (c.height - 1)) + (c.yMax - c.yMin)
            ∧ 2 * ((yc - c.yMin) * (c.height - 1)) + (c.yMax - c.yMin)
              < 2 * (c.yMax - c.yMin) * (v + 1))
      ∧ (transform c rawX rawY).zone % c.cols = (transform c rawX rawY).x * c.cols / c.width
      ∧ (transform c rawX rawY).zone / c.cols = (transform c rawX rawY).y * c.rows / c.height
      ∧ ((transform c rawX rawY).edge = true ↔
          (if c.swap then rawY else rawX) < c.xMin ∨ c.xMax < (if c.swap then rawY else rawX)
            ∨ (if c.swap then rawX else rawY) < c.yMin ∨ c.yMax < (if c.swap then rawX else rawY))

/-- A route entry matches a zone by its range, by its pair, or by the bits of its mask (R112). For every
entry and every zone 0 to 255: a RANGE entry matches exactly when z1 is at most the zone and the zone at
most z2, so that one with z1 above z2 matches none; a PAIR entry exactly when the zone is z1 or z2; and a
MASK entry exactly when every bit of the mask z2 is the same in the zone and in the pattern z1, so that a
mask of 0 matches every zone and bits of z1 outside the mask do not matter. -/
def Obligations.RouteEntriesMatchByType : Prop :=
  ∀ (e : RouteEntry) (z : Nat), z ≤ 255 →
    (e.kind = .range → (routeMatches e z = true ↔ e.z1.toNat ≤ z ∧ z ≤ e.z2.toNat))
      ∧ (e.kind = .range → e.z2.toNat < e.z1.toNat → routeMatches e z = false)
      ∧ (e.kind = .pair → (routeMatches e z = true ↔ z = e.z1.toNat ∨ z = e.z2.toNat))
      ∧ (e.kind = .mask → (routeMatches e z = true ↔
          ∀ i < 8, e.z2.getLsbD i = true → z.testBit i = e.z1.getLsbD i))
      ∧ (e.kind = .mask → e.z2 = 0 → routeMatches e z = true)

/-- An accepted DOWN is pinned where the first matching entry sends it, and its record is placed there
(05_touch_panels_coordinates_and_contacts.md, The contact table,
05_touch_panels_coordinates_and_contacts.md, Cutting contacts, 06_touch_routing_and_staff_sequences.md, The
route lookup, 06_touch_routing_and_staff_sequences.md, The actions,
05_touch_panels_coordinates_and_contacts.md, Cue tagging, 07_streams_and_kiosk_delivery.md, Touch under
pressure). For an accepted DOWN at a table of fewer than 10 entries without its id, TOUCH_DOWN completes as
the first enabled entry that matches its zone decides, HOLDER when none does. HOLDER leads to STAFF in
STAFF_HOLD, else to the holder, else to an idle destination UP and admitted, else to DROP; KIOSK to its
kiosk UP and admitted, else to DROP; SEQ_A and SEQ_B as HOLDER under a trigger that is OFF. The contact is
pinned there with its via value. At an UP link with room the record stands at the tail with the pending GAP
and the cue tag, the tagging cue is spent, and a holder's idle deadline is armed afresh; at a DOWN link, or
at the touch cap, no record is placed and the contact is ORPHAN, the cap making GAP pending; at DROP no
record goes out. STAFF pins to DROP and hands an ATTENDANT to the staff link. A repeated id in a table of at
most 10 entries ends first: its entry leaves, a LIVE one at an UP link with room with a CANCELLED synthetic
UP at the tail, and the new contact is pinned where the lookup leads. With 10 entries and its id not among
them the DOWN is dropped; so is a report out of range, or one at a port that is not SERVING at READY, which
only marks a running check disturbed, one out of range too by the model's choice (log 29). The tag's 65,535
at most, and none for a report from before the edge, are the model's choice (log 30). -/
def Obligations.TouchDownIsPinned : Prop :=
  (∀ (p : PortId) (b : TouchBody) (id : Fin 16) (s : State) (a : RouteAction) (d : Dest) (v : Via),
    Accepts p b id s → (∀ c ∈ (s.panels.get p).contacts, c.id ≠ id) →
    (s.panels.get p).contacts.length < 10 →
    Decides (s.panels.get p).routes (touchAt s p b).zone a → Leads s p d v a →
    ∃ t, exec (.touchDown p b) s = .next (finish s t)
      ∧ (d = .drop →
          (t.panels.get p).contacts = (s.panels.get p).contacts ++ [pinned s p b id .drop v]
            ∧ Only (these (.contacts p :: heard p)) s t)
      ∧ (∀ l, d = .link l → (s.link l).up = true → HasRoom l s →
          (t.panels.get p).contacts = (s.panels.get p).contacts ++ [pinned s p b id (.link l) v]
            ∧ (t.link l).queue = (s.link l).queue ++
                [⟨.touch (touched s p b id .down (tagFor s p b) (s.link l).gap), false⟩]
            ∧ (t.link l).gap = false
            ∧ (t.panels.get p).cue = cueLeft s p b
            ∧ t.claims.get p = afterActivity s p l
            ∧ Only (these ([.contacts p, .cue p, .claims p, .queue l] ++ heard p)) s t)
      ∧ (∀ l, d = .link l → ((s.link l).up = false ∨ ¬ HasRoom l s) →
          (t.panels.get p).contacts =
              (s.panels.get p).contacts ++ [{ pinned s p b id (.link l) v with live := false }]
            ∧ (t.link l).queue = (s.link l).queue
            ∧ (t.link l).gap = ((s.link l).gap || (s.link l).up)
            ∧ Only (these ([.contacts p, .queue l] ++ heard p)) s t))
  ∧
  (∀ (p : PortId) (b : TouchBody) (id : Fin 16) (s : State), Accepts p b id s →
    (∀ c ∈ (s.panels.get p).contacts, c.id ≠ id) → (s.panels.get p).contacts.length < 10 →
    Decides (s.panels.get p).routes (touchAt s p b).zone .staff →
    (s.link .staff).queue.length < 32 →
    ∃ t, exec (.touchDown p b) s = .next (finish s t)
      ∧ (t.panels.get p).contacts = (s.panels.get p).contacts ++ [pinned s p b id .drop .neither]
      ∧ Queued .staff (.attendant ⟨p, .zone, (touchAt s p b).zone, id, b.arrival, false⟩) t
      ∧ Only (these ([.contacts p, .queue .staff] ++ heard p)) s t)
  ∧
  (∀ (p : PortId) (b : TouchBody) (id : Fin 16) (s : State) (a : RouteAction) (d : Dest) (v : Via),
    Accepts p b id s → (s.panels.get p).contacts.length ≤ 10 →
    Decides (s.panels.get p).routes (touchAt s p b).zone a → Leads s p d v a →
    ∀ c, contactOf s p id = some c → c.live = true →
    ∀ l, c.dest = .link l → (s.link l).up = true → HasRoom l s →
    ∃ t e r, exec (.touchDown p b) s = .next (finish s t)
      ∧ (t.link l).queue = (s.link l).queue ++
          ⟨.touch { port := p, contact := id, phase := .up, x := c.x, y := c.y, zone := c.zone
                    pressure := 0, stamp := s.tick, edge := c.edge, cancelled := true, cue := none
                    gap := (s.link l).gap }, false⟩ :: r
      ∧ (t.panels.get p).contacts = (s.panels.get p).contacts.filter (fun c => c.id != id) ++ [e]
      ∧ e.id = id ∧ e.dest = d ∧ e.via = v ∧ e.downTick = b.arrival
      ∧ (d ≠ .link l → r = [] ∧ (t.link l).gap = false)
      ∧ (d = .drop → (t.panels.get p).cue = (s.panels.get p).cue)
      ∧ Only (fun x => x ∈ [.contacts p, .cue p, .claims p, .queue l] ++ heard p
          ∨ ∃ m, d = .link m ∧ x = .queue m) s t)
  ∧
  (∀ (p : PortId) (b : TouchBody) (id : Fin 16) (s : State) (a : RouteAction) (d : Dest) (v : Via),
    Accepts p b id s → (s.panels.get p).contacts.length ≤ 10 →
    Decides (s.panels.get p).routes (touchAt s p b).zone a → Leads s p d v a →
    ∀ c, contactOf s p id = some c →
    (c.live = false ∨ ∀ l, c.dest = .link l → (s.link l).up = false) →
    ∃ t e, exec (.touchDown p b) s = .next (finish s t)
      ∧ (t.panels.get p).contacts = (s.panels.get p).contacts.filter (fun c => c.id != id) ++ [e]
      ∧ e.id = id ∧ e.dest = d ∧ e.via = v ∧ e.downTick = b.arrival
      ∧ (d = .drop → (t.panels.get p).cue = (s.panels.get p).cue)
      ∧ Only (fun x => x ∈ [.contacts p, .cue p, .claims p] ++ heard p
          ∨ ∃ m, d = .link m ∧ x = .queue m) s t)
  ∧
  (∀ (p : PortId) (b : TouchBody) (s : State), Attends p s → s.cls p = .panel →
    s.cond p = .serving → (s.power.get p).reached = some .ready →
    (15 < b.contact.toNat ∨ 4095 < b.rawX.toNat ∨ 4095 < b.rawY.toNat
      ∨ (10 ≤ (s.panels.get p).contacts.length
        ∧ ∀ c ∈ (s.panels.get p).contacts, c.id.val ≠ b.contact.toNat)) →
    ∃ t, exec (.touchDown p b) s = .next (finish s t)
      ∧ Only (these (heard p)) s t)
  ∧
  ∀ (p : PortId) (b : TouchBody) (s : State), Attends p s → s.cls p = .panel →
    (s.cond p ≠ .serving ∨ (s.power.get p).reached ≠ some .ready) →
    ∃ t, exec (.touchDown p b) s = .next (finish s t)
      ∧ (t.ctls.get p).check = { (s.ctls.get p).check with
          disturbed := s.cond p == .checking || (s.ctls.get p).check.disturbed }
      ∧ Only (these (.check p :: heard p)) s t

/-- An accepted MOVE or UP goes where its DOWN was pinned, a MOVE over the contact's queued MOVE, and an UP
ends the entry (05_touch_panels_coordinates_and_contacts.md, The contact table,
07_streams_and_kiosk_delivery.md, Touch under pressure, 05_touch_panels_coordinates_and_contacts.md, Cue
tagging). For an accepted MOVE of a LIVE contact whose destination link is UP: when the most recent touch
record of the contact in that queue is a MOVE, TOUCH_MOVE completes with that item replaced in place by the
new record, which keeps an older cue tag and carries GAP when the older one did or GAP was pending; when it
is no MOVE, or there is none, the record stands at the tail of a queue with room, and without room it is
dropped, GAP becomes pending and a pending cue stays. For an UP of a LIVE contact at a queue with room,
TOUCH_UP completes with the record at the tail; at the touch cap the oldest touch record of the queue leaves
and the UP stands at the tail with GAP, a discarded DOWN's contact still LIVE at this link being ORPHAN, and
in a full queue without a touch record the UP is dropped and GAP becomes pending. The last record is updated
by a MOVE and the entry removed by an UP in each of these cases. A record placed or coalesced spends the
tagging cue, and a holder's own records arm its idle deadline. A LIVE contact pinned to DROP, or to a DOWN
link, has its last record updated or its entry removed and no record goes out. A MOVE for an ORPHAN entry
and a MOVE or UP without an entry change nothing more, and an UP removes an ORPHAN entry without a record.
The tag's 65,535 at most, and none for a report from before the edge, are the model's choice (log 30). -/
def Obligations.TouchMoveAndUpFollowThePin : Prop :=
  (∀ (p : PortId) (b : TouchBody) (id : Fin 16) (l : LinkId) (n : Nat) (s : State), Accepts p b id s →
    ∀ c, contactOf s p id = some c → c.live = true → c.dest = .link l → (s.link l).up = true →
    ∀ i, (s.link l).queue[n]? = some i → ∀ o, Item.touch? i = some o → o.port = p →
    o.contact = id → o.phase = .move →
    (∀ z ∈ (s.link l).queue.drop (n + 1), ¬ TouchOf p id z) →
    ∃ t, exec (.touchMove p b) s = .next (finish s t)
      ∧ (t.link l).queue = (s.link l).queue.set n ⟨.touch (touched s p b id .move
          (if o.cue.isSome then o.cue else tagFor s p b) (o.gap || (s.link l).gap)), i.lost⟩
      ∧ (t.link l).gap = false
      ∧ (t.panels.get p).contacts = lastSeen s p b id
      ∧ (t.panels.get p).cue = cueLeft s p b
      ∧ t.claims.get p = afterActivity s p l
      ∧ Only (these ([.contacts p, .cue p, .claims p, .queue l] ++ heard p)) s t)
  ∧
  (∀ (p : PortId) (b : TouchBody) (id : Fin 16) (l : LinkId) (s : State), Accepts p b id s →
    ∀ c, contactOf s p id = some c → c.live = true → c.dest = .link l → (s.link l).up = true →
    HasRoom l s → NoMoveWaits p id (s.link l).queue →
    ∃ t, exec (.touchMove p b) s = .next (finish s t)
      ∧ (t.link l).queue = (s.link l).queue ++
          [⟨.touch (touched s p b id .move (tagFor s p b) (s.link l).gap), false⟩]
      ∧ (t.link l).gap = false
      ∧ (t.panels.get p).contacts = lastSeen s p b id
      ∧ (t.panels.get p).cue = cueLeft s p b
      ∧ t.claims.get p = afterActivity s p l
      ∧ Only (these ([.contacts p, .cue p, .claims p, .queue l] ++ heard p)) s t)
  ∧
  (∀ (p : PortId) (b : TouchBody) (id : Fin 16) (l : LinkId) (s : State), Accepts p b id s →
    ∀ c, contactOf s p id = some c → c.live = true → c.dest = .link l → (s.link l).up = true →
    ¬ HasRoom l s → NoMoveWaits p id (s.link l).queue →
    ∃ t, exec (.touchMove p b) s = .next (finish s t)
      ∧ (t.link l).queue = (s.link l).queue ∧ (t.link l).gap = true
      ∧ (t.panels.get p).contacts = lastSeen s p b id
      ∧ Only (these ([.contacts p, .queue l] ++ heard p)) s t)
  ∧
  (∀ (p : PortId) (b : TouchBody) (id : Fin 16) (l : LinkId) (s : State), Accepts p b id s →
    ∀ c, contactOf s p id = some c → c.live = true → c.dest = .link l → (s.link l).up = true →
    HasRoom l s →
    ∃ t, exec (.touchUp p b) s = .next (finish s t)
      ∧ (t.link l).queue = (s.link l).queue ++
          [⟨.touch (touched s p b id .up (tagFor s p b) (s.link l).gap), false⟩]
      ∧ (t.link l).gap = false
      ∧ (t.panels.get p).contacts = ((s.panels.get p).contacts.filter fun d => d.id != id)
      ∧ (t.panels.get p).cue = cueLeft s p b
      ∧ t.claims.get p = afterActivity s p l
      ∧ Only (these ([.contacts p, .cue p, .claims p, .queue l] ++ heard p)) s t)
  ∧
  (∀ (p : PortId) (b : TouchBody) (id : Fin 16) (l : LinkId) (s : State), Accepts p b id s →
    ∀ c, contactOf s p id = some c → c.live = true → c.dest = .link l → (s.link l).up = true →
    ¬ HasRoom l s →
    ∀ (q r : List Item) (i : Item) (o : TouchRecord), (s.link l).queue = q ++ i :: r →
    (∀ z ∈ q, Item.touch? z = none) → Item.touch? i = some o →
    ∃ t, exec (.touchUp p b) s = .next (finish s t)
      ∧ (t.link l).queue = q ++ r ++
          [⟨.touch (touched s p b id .up (tagFor s p b) true), false⟩]
      ∧ (t.link l).gap = false
      ∧ (∀ m, (t.panels.get m).contacts = (((s.panels.get m).contacts.map fun d =>
          if o.phase = .down ∧ m = o.port ∧ d.id = o.contact ∧ d.live = true ∧ d.dest = .link l
            ∧ d.downTick = o.stamp then { d with live := false } else d).filter
          fun d => m != p || d.id != id))
      ∧ (t.panels.get p).cue = cueLeft s p b
      ∧ t.claims.get p = afterActivity s p l
      ∧ Only (these ([.contacts p, .contacts o.port, .cue p, .claims p, .queue l] ++ heard p)) s t)
  ∧
  (∀ (p : PortId) (b : TouchBody) (id : Fin 16) (l : LinkId) (s : State), Accepts p b id s →
    ∀ c, contactOf s p id = some c → c.live = true → c.dest = .link l → (s.link l).up = true →
    ¬ HasRoom l s → (∀ z ∈ (s.link l).queue, Item.touch? z = none) →
    ∃ t, exec (.touchUp p b) s = .next (finish s t)
      ∧ (t.link l).queue = (s.link l).queue ∧ (t.link l).gap = true
      ∧ (t.panels.get p).contacts = ((s.panels.get p).contacts.filter fun d => d.id != id)
      ∧ Only (these ([.contacts p, .queue l] ++ heard p)) s t)
  ∧
  (∀ (p : PortId) (b : TouchBody) (id : Fin 16) (s : State), Accepts p b id s →
    ∀ c, contactOf s p id = some c → c.live = true →
    (∀ l, c.dest = .link l → (s.link l).up = false) →
    ∃ t u, exec (.touchMove p b) s = .next (finish s t)
      ∧ (t.panels.get p).contacts = lastSeen s p b id
      ∧ Only (these (.contacts p :: heard p)) s t
      ∧ exec (.touchUp p b) s = .next (finish s u)
      ∧ (u.panels.get p).contacts = ((s.panels.get p).contacts.filter fun d => d.id != id)
      ∧ Only (these (.contacts p :: heard p)) s u)
  ∧
  (∀ (p : PortId) (b : TouchBody) (id : Fin 16) (s : State), Accepts p b id s →
    (∀ c, contactOf s p id = some c → c.live = false) →
    ∃ t, exec (.touchMove p b) s = .next (finish s t)
      ∧ Only (these (heard p)) s t)
  ∧
  ∀ (p : PortId) (b : TouchBody) (id : Fin 16) (s : State), Accepts p b id s →
    (∀ c, contactOf s p id = some c → c.live = false) →
    ∃ t, exec (.touchUp p b) s = .next (finish s t)
      ∧ (t.panels.get p).contacts = ((s.panels.get p).contacts.filter fun d => d.id != id)
      ∧ Only (these (.contacts p :: heard p)) s t

/-- Steps advance a trigger, its deadline takes it back, and edges of the cue line set and saturate pending
cues (06_touch_routing_and_staff_sequences.md, The route lookup, 02_staff_takeover_and_hall_closing.md,
TAKE, 02_staff_takeover_and_hall_closing.md, Entering STAFF_HOLD, 06_touch_routing_and_staff_sequences.md,
Steps, 06_touch_routing_and_staff_sequences.md, The actions, 05_touch_panels_coordinates_and_contacts.md,
Cue tagging, 11_time_base_settings_memory_and_start_up.md, The tick counter). For an accepted DOWN with a
new id at a table of fewer than 10 entries, whose zone the first enabled entry that matches sends to SEQ_A
or SEQ_B under a trigger that is not OFF (an OFF one is stated with the other actions), TOUCH_DOWN completes
as follows and pins the contact to DROP. A step A in WAIT_A or WAIT_B gives WAIT_B with the window from now;
a step B in WAIT_B gives MATCHED and an ATTENDANT notice for the sequence, which carries take for the
response NOTICE_TAKE (read in a staff queue with room). With NOTICE_TAKE a panel in takeover state NONE
enters STAFF_HOLD besides, without a shield deadline, its holder suspended and told so, or, while its shield
runs, is TAKE_PENDING on SHIELD; TAKE_STATE tells of either; a panel in another takeover state stays in it.
A step in any other state changes nothing else. SEQ_EXPIRY at a reached deadline completes with WAIT_A.
After the start-up read CUE_EDGE with a new level completes with that level kept, and a direction that the
cue edge selects makes the edge's tick the pending cue of every panel with cue enable on. CUE_SATURATED
completes with SATURATED once 65,535 ticks have passed. Without a new level or a reached deadline nothing
changes. Expiries that are not due, arrival ticks and edges before the start-up read's end are the model's
reading (logs 3, 14, 39). -/
def Obligations.SequencesAndCuesFollowTheirEvents : Prop :=
  (∀ (p : PortId) (b : TouchBody) (id : Fin 16) (s : State), Accepts p b id s →
    (∀ c ∈ (s.panels.get p).contacts, c.id ≠ id) → (s.panels.get p).contacts.length < 10 →
    Decides (s.panels.get p).routes (touchAt s p b).zone .seqA → (s.panels.get p).seqState ≠ .off →
    ∃ t, exec (.touchDown p b) s = .next (finish s t)
      ∧ (t.panels.get p).seqState = (if (s.panels.get p).seqState = .matched then .matched
          else .waitB (after s.tick (millis (s.panels.get p).seq.windowMs)))
      ∧ (t.panels.get p).contacts = (s.panels.get p).contacts ++ [pinned s p b id .drop .neither]
      ∧ Only (these ([.sequence p, .contacts p] ++ heard p)) s t)
  ∧
  (∀ (p : PortId) (b : TouchBody) (id : Fin 16) (d : Tick) (s : State), Accepts p b id s →
    (∀ c ∈ (s.panels.get p).contacts, c.id ≠ id) → (s.panels.get p).contacts.length < 10 →
    Decides (s.panels.get p).routes (touchAt s p b).zone .seqB →
    (s.panels.get p).seqState = .waitB d → (s.panels.get p).seq.response = .notice →
    (s.link .staff).queue.length < 32 →
    ∃ t, exec (.touchDown p b) s = .next (finish s t)
      ∧ (t.panels.get p).seqState = .matched
      ∧ (t.panels.get p).contacts = (s.panels.get p).contacts ++ [pinned s p b id .drop .neither]
      ∧ Queued .staff (.attendant ⟨p, .sequence, (touchAt s p b).zone, id, b.arrival, false⟩) t
      ∧ Only (these ([.sequence p, .contacts p, .queue .staff] ++ heard p)) s t)
  ∧
  (∀ (p : PortId) (b : TouchBody) (id : Fin 16) (d : Tick) (s : State), Accepts p b id s →
    (∀ c ∈ (s.panels.get p).contacts, c.id ≠ id) → (s.panels.get p).contacts.length < 10 →
    Decides (s.panels.get p).routes (touchAt s p b).zone .seqB →
    (s.panels.get p).seqState = .waitB d → (s.panels.get p).seq.response = .noticeTake →
    (s.takes.get p).state = .free → shieldRuns s p = false → HasSlack .staff s →
    ∃ t, exec (.touchDown p b) s = .next (finish s t)
      ∧ (t.panels.get p).seqState = .matched
      ∧ t.takes.get p = ⟨.staffHold, none⟩
      ∧ t.claims.get p =
          withHolder (fun c => { c with suspended := true, deadline := none }) (s.claims.get p)
      ∧ Queued .staff (.attendant ⟨p, .sequence, (touchAt s p b).zone, id, b.arrival, true⟩) t
      ∧ Queued .staff (.takeState p .staffHold none) t
      ∧ (∀ k, s.holder p = some k → Queued (.kiosk k) (.claimState p .suspended) t)
      ∧ pinned s p b id .drop .neither ∈ (t.panels.get p).contacts
      ∧ Only (theseTold ([.sequence p, .takeover p, .claims p] ++ heard p) fun _ => True) s t)
  ∧
  (∀ (p : PortId) (b : TouchBody) (id : Fin 16) (d : Tick) (s : State), Accepts p b id s →
    (∀ c ∈ (s.panels.get p).contacts, c.id ≠ id) → (s.panels.get p).contacts.length < 10 →
    Decides (s.panels.get p).routes (touchAt s p b).zone .seqB →
    (s.panels.get p).seqState = .waitB d → (s.panels.get p).seq.response = .noticeTake →
    (s.takes.get p).state = .free → shieldRuns s p = true → HasSlack .staff s →
    ∃ t, exec (.touchDown p b) s = .next (finish s t)
      ∧ (t.panels.get p).seqState = .matched
      ∧ t.takes.get p = ⟨.pending .shield false, (s.takes.get p).shield⟩
      ∧ Queued .staff (.attendant ⟨p, .sequence, (touchAt s p b).zone, id, b.arrival, true⟩) t
      ∧ Queued .staff (.takeState p (.pending .shield false) (s.shieldLeft p)) t
      ∧ (t.panels.get p).contacts = (s.panels.get p).contacts ++ [pinned s p b id .drop .neither]
      ∧ Only (these ([.sequence p, .takeover p, .contacts p, .queue .staff] ++ heard p)) s t)
  ∧
  (∀ (p : PortId) (b : TouchBody) (id : Fin 16) (d : Tick) (s : State), Accepts p b id s →
    (∀ c ∈ (s.panels.get p).contacts, c.id ≠ id) → (s.panels.get p).contacts.length < 10 →
    Decides (s.panels.get p).routes (touchAt s p b).zone .seqB →
    (s.panels.get p).seqState = .waitB d → (s.panels.get p).seq.response = .noticeTake →
    (s.takes.get p).state ≠ .free → (s.link .staff).queue.length < 32 →
    ∃ t, exec (.touchDown p b) s = .next (finish s t)
      ∧ (t.panels.get p).seqState = .matched
      ∧ Queued .staff (.attendant ⟨p, .sequence, (touchAt s p b).zone, id, b.arrival, true⟩) t
      ∧ (t.panels.get p).contacts = (s.panels.get p).contacts ++ [pinned s p b id .drop .neither]
      ∧ Only (these ([.sequence p, .contacts p, .queue .staff] ++ heard p)) s t)
  ∧
  (∀ (p : PortId) (b : TouchBody) (id : Fin 16) (s : State), Accepts p b id s →
    (∀ c ∈ (s.panels.get p).contacts, c.id ≠ id) → (s.panels.get p).contacts.length < 10 →
    Decides (s.panels.get p).routes (touchAt s p b).zone .seqB →
    ((s.panels.get p).seqState = .waitA ∨ (s.panels.get p).seqState = .matched) →
    ∃ t, exec (.touchDown p b) s = .next (finish s t)
      ∧ (t.panels.get p).contacts = (s.panels.get p).contacts ++ [pinned s p b id .drop .neither]
      ∧ Only (these (.contacts p :: heard p)) s t)
  ∧
  (∀ (p : PortId) (s : State),
    ∃ t, exec (.seqExpiry p) s = .next (finish s t)
      ∧ (t.panels.get p).seqState = (match (s.panels.get p).seqState with
          | .waitB d => if reached s.tick d then .waitA else .waitB d
          | st => st)
      ∧ Only (these [.sequence p]) s t)
  ∧
  (∀ (high : Bool) (seen : Tick) (s : State), s.loader.starting = false → s.cueLevel ≠ high →
    ∃ t, exec (.cueEdge high seen) s = .next (finish s t)
      ∧ t.cueLevel = high
      ∧ (∀ p, (t.panels.get p).cue =
          (if (s.cueEdge = .both ∨ s.cueEdge = (if high then .rising else .falling))
              ∧ s.cls p = .panel ∧ (s.configs.get p).cueEnable = true then .tick seen
           else (s.panels.get p).cue))
      ∧ Only (fun x => x = .cueLine ∨ ∃ p, x = .cue p) s t)
  ∧
  (∀ (high : Bool) (seen : Tick) (s : State), s.cueLevel = high →
    ∃ t, exec (.cueEdge high seen) s = .next (finish s t)
      ∧ t = s)
  ∧
  ∀ (p : PortId) (s : State),
    ∃ t, exec (.cueSaturated p) s = .next (finish s t)
      ∧ (t.panels.get p).cue = (match (s.panels.get p).cue with
          | .tick d => if reached s.tick (after d 65535) then .saturated else .tick d
          | c => c)
      ∧ Only (these [.cue p]) s t

/-- The staff console sets and reads calibrations, routes, triggers and the cue edge of a panel
(05_touch_panels_coordinates_and_contacts.md, The calibration record,
06_touch_routing_and_staff_sequences.md, Setting and reading the route table,
06_touch_routing_and_staff_sequences.md, Setting and reading the trigger,
05_touch_panels_coordinates_and_contacts.md, Cue tagging). For a listening staff link and a panel port:
CALIBRATE with its edges in order and at most 4095, W and H 1 to 8192 and C and G 1 to 16 completes with
that record whole in force, and with any other is refused BAD_VALUE; ROUTE_SET with an index to 15, a type
of the three, an action of the six and, for KIOSK, a kiosk present and at most 23 replaces that entry alone
by the one sent, a kiosk kept for KIOSK only, and else is refused BAD_VALUE; ROUTE_QUERY reads the table,
the idle destination and the trigger's state and changes nothing; SEQ_SET with armed and response 0 or 1
replaces the configuration with the window clamped into 100 to 5000 ms, and the state becomes OFF when
disarmed and WAIT_A from OFF when armed, and else is refused BAD_VALUE with nothing changed; SEQ_QUERY reads
configuration, state and the milliseconds left, rounded up, 0 for a deadline already reached by the model's
choice (log 35), and turns MATCHED into WAIT_A; CUE_SET with an edge 0 to 3 keeps it and removes every
pending cue, and else is refused BAD_VALUE. -/
def Obligations.PanelRequestsAreTaken : Prop :=
  (∀ (p : PortId) (b : CalibrateBody) (s : State), portOf b.port = some p → Listens .staff s →
    s.cls p = .panel →
    ∃ t, exec (.calibrate (.fields b)) s = .next (finish s t)
      ∧ (CalibrateFits b → (t.panels.get p).calibration = calibrationSent b
          ∧ Replies .staff Kind.calibrate .ok (.calibration (calibrationSent b)) t)
      ∧ (¬ CalibrateFits b → (t.panels.get p).calibration = (s.panels.get p).calibration
          ∧ Replies .staff Kind.calibrate .badValue .bare t)
      ∧ (t.panels.get p).routes = (s.panels.get p).routes ∧ (t.panels.get p).seq = (s.panels.get p).seq
      ∧ Only (these (.panelSettings p :: asked .staff)) s t)
  ∧
  (∀ (p : PortId) (b : RouteSetBody) (s : State), portOf b.port = some p → Listens .staff s →
    s.cls p = .panel →
    ∃ t, exec (.routeSet (.fields b)) s = .next (finish s t)
      ∧ (RouteFits b → ∃ e, RouteSent b e ∧ Replies .staff Kind.routeSet .ok (.routeEntry e) t
          ∧ ∀ n, (t.panels.get p).routes.get n =
              if n.val = b.index.toNat then e else (s.panels.get p).routes.get n)
      ∧ (¬ RouteFits b → (t.panels.get p).routes = (s.panels.get p).routes
          ∧ Replies .staff Kind.routeSet .badValue .bare t)
      ∧ (t.panels.get p).calibration = (s.panels.get p).calibration
      ∧ (t.panels.get p).seq = (s.panels.get p).seq
      ∧ Only (these (.panelSettings p :: asked .staff)) s t)
  ∧
  (∀ (p : PortId) (b : Byte) (s : State), portOf b = some p → Listens .staff s → s.cls p = .panel →
    ∃ t, exec (.routeQuery (.fields b)) s = .next (finish s t)
      ∧ Replies .staff Kind.routeQuery .ok (.routeTable p (s.configs.get p).idleDest
          (s.panels.get p).seqState (s.panels.get p).routes) t
      ∧ Only (these (asked .staff)) s t)
  ∧
  (∀ (p : PortId) (b : SeqSetBody) (s : State), portOf b.port = some p → Listens .staff s →
    s.cls p = .panel → b.armed.toNat ≤ 1 → b.response.toNat ≤ 1 →
    ∃ t, exec (.seqSet (.fields b)) s = .next (finish s t)
      ∧ (t.panels.get p).seq = ⟨b.armed == 1, max 100 (min 5000 b.windowMs.toNat),
          if b.response = 1 then .noticeTake else .notice⟩
      ∧ (t.panels.get p).seqState = (if b.armed = 0 then .off
          else if (s.panels.get p).seqState = .off then .waitA else (s.panels.get p).seqState)
      ∧ Replies .staff Kind.seqSet .ok (.seqConfig (t.panels.get p).seq (t.panels.get p).seqState) t
      ∧ (t.panels.get p).calibration = (s.panels.get p).calibration
      ∧ (t.panels.get p).routes = (s.panels.get p).routes
      ∧ Only (these ([.panelSettings p, .sequence p] ++ asked .staff)) s t)
  ∧
  (∀ (p : PortId) (b : SeqSetBody) (s : State), portOf b.port = some p → Listens .staff s →
    s.cls p = .panel → (1 < b.armed.toNat ∨ 1 < b.response.toNat) →
    ∃ t, exec (.seqSet (.fields b)) s = .next (finish s t)
      ∧ Replies .staff Kind.seqSet .badValue .bare t
      ∧ Only (these (asked .staff)) s t)
  ∧
  (∀ (p : PortId) (b : Byte) (s : State), portOf b = some p → Listens .staff s → s.cls p = .panel →
    ∃ t, exec (.seqQuery (.fields b)) s = .next (finish s t)
      ∧ Replies .staff Kind.seqQuery .ok (.seqView (s.panels.get p).seq (s.panels.get p).seqState
          (match (s.panels.get p).seqState with
           | .waitB d => some ((left s.tick d + 9) / 10)
           | _ => none)) t
      ∧ (t.panels.get p).seqState =
          (if (s.panels.get p).seqState = .matched then .waitA else (s.panels.get p).seqState)
      ∧ Only (these (.sequence p :: asked .staff)) s t)
  ∧
  ∀ (b : Byte) (s : State), Listens .staff s →
    ∃ t, exec (.cueSet (.fields b)) s = .next (finish s t)
      ∧ (b.toNat ≤ 3 → cueEdgeCode t.cueEdge = b.toNat ∧ (∀ p, (t.panels.get p).cue = .absent)
          ∧ Replies .staff Kind.cueSet .ok .bare t)
      ∧ (3 < b.toNat → Replies .staff Kind.cueSet .badValue .bare t
          ∧ Only (these (asked .staff)) s t)
      ∧ Only (fun x => x = .cueEdge ∨ x ∈ asked .staff ∨ ∃ p, x = .cue p) s t

/-- A CHUNK with credit and the expected number is buffered, another from the sender is a stream error, and
a stray one is discarded (07_streams_and_kiosk_delivery.md, Chunks from the sender,
07_streams_and_kiosk_delivery.md, Stalls, 03_print_jobs.md, The job in flight, 04_scanning.md, Image scans,
04_scanning.md, Aborting a scan, 04_scanning.md, How a scan leaves flight). CHUNK from an UP link after the
start-up read completes as follows for the PULL stream of which the link is partner and whose source has not
ended. With credit and the expected sequence number and without PAGE_END the chunk joins the buffers, sender
credit falls and the expected number rises by one, LAST ends the source, and the stall deadline is set
afresh while it still runs. A PAGE_END chunk so taken counts one page-end for a job in flight not being
aborted, and above the declared pages aborts it STREAM_ERROR; so does a chunk without credit or of a wrong
number. From the attended adapter of a PUSH stream a good chunk is buffered; one without credit or of a
wrong number aborts a scan STARTING or SCANNING for DEVICE, with SCAN_ABORT; and one after the source ended
ends a scan that is ENDING, which leaves flight without SCAN_ABORT, where no take and no closing holder
waits for it. SCAN_RESULT for DEVICE goes to the requester of either. Any other chunk, and one of a wrong
length, reloads timers only; so does one from an adapter that names another port, by the model's choice (log
16). -/
def Obligations.ChunksAreJudgedByTheStream : Prop :=
  (∀ (l : LinkId) (p : PortId) (b : ChunkBody) (s : State), Hears l s → portOf b.port = some p →
    ∀ x, s.streams.get p = some x → x.direction = .pull → x.partner = l → x.sourceEnded = false →
    0 < x.senderCredit → b.seq = x.expected → b.flags.getLsbD 0 = false →
    ∃ t, exec (.chunk (.link l) (.fields b)) s = .next (finish s t)
      ∧ t.streams.get p = some { fed ⟨b.seq, false, b.flags.getLsbD 1, b.data⟩ x with
          stall := if 1 < x.senderCredit ∧ b.flags.getLsbD 1 = false ∧ x.stallFrozen = false
            then some (stallEnd s p) else none }
      ∧ Only (these [.stream p, .unit l]) s t)
  ∧
  (∀ (l : LinkId) (p : PortId) (b : ChunkBody) (s : State), Hears l s → portOf b.port = some p →
    ∀ x, s.streams.get p = some x → x.direction = .pull → x.partner = l → x.sourceEnded = false →
    0 < x.senderCredit → b.seq = x.expected → b.flags.getLsbD 0 = true →
    ∀ j, (s.printers.get p).inflight = some j → j.abortSent = false → j.pageEnds < j.pages →
    ∃ t, exec (.chunk (.link l) (.fields b)) s = .next (finish s t)
      ∧ (t.streams.get p).map (fun y => { y with stall := none }) = some
          { fed ⟨b.seq, true, b.flags.getLsbD 1, b.data⟩ x with
            stall := none, forwardHeld := j.state == .held
            stallFrozen := j.state == .stalled || j.state == .held || j.state == .ending }
      ∧ (t.printers.get p).inflight = some { j with pageEnds := j.pageEnds + 1 }
      ∧ Only (these [.stream p, .printer p, .waits p, .unit l]) s t)
  ∧
  (∀ (l : LinkId) (p : PortId) (b : ChunkBody) (s : State), Hears l s → portOf b.port = some p →
    ∀ x, s.streams.get p = some x → x.direction = .pull → x.partner = l → x.sourceEnded = false →
    ∀ j, (s.printers.get p).inflight = some j → j.abortSent = false →
    (x.senderCredit = 0 ∨ b.seq ≠ x.expected ∨ (b.flags.getLsbD 0 = true ∧ j.pages ≤ j.pageEnds)) →
    ∃ t, exec (.chunk (.link l) (.fields b)) s = .next (finish s t)
      ∧ t.streams.get p = none
      ∧ (t.printers.get p).inflight = some { j with
          abortCause := some (.failed .streamError), abortSent := true
          pageEnds := if 0 < x.senderCredit ∧ b.seq = x.expected then j.pageEnds + 1 else j.pageEnds }
      ∧ (t.wires.get p).commands = (s.wires.get p).commands ++ [.printAbort]
      ∧ Only (these [.stream p, .printer p, .waits p, .commands p, .unit l]) s t)
  ∧
  (∀ (l : LinkId) (b : ChunkBody) (s : State), Hears l s →
    (∀ p, portOf b.port = some p → ∀ x, s.streams.get p = some x →
      x.direction ≠ .pull ∨ x.partner ≠ l ∨ x.sourceEnded = true) →
    ∃ t, exec (.chunk (.link l) (.fields b)) s = .next (finish s t)
      ∧ Only (these [.unit l]) s t)
  ∧
  (∀ (p : PortId) (b : ChunkBody) (s : State), Attends p s → portOf b.port = some p →
    ∀ x, s.streams.get p = some x → x.direction = .push → x.sourceEnded = false →
    0 < x.senderCredit → b.seq = x.expected →
    ∃ t, exec (.chunk (.device p) (.fields b)) s = .next (finish s t)
      ∧ t.streams.get p = some
          { fed ⟨b.seq, b.flags.getLsbD 0, b.flags.getLsbD 1, b.data⟩ x with
            stall := if x.sinkCredit ≠ 0 then none
              else if x.stall = none then some (stallEnd s p) else x.stall }
      ∧ Only (these (.stream p :: heard p)) s t)
  ∧
  (∀ (p : PortId) (b : ChunkBody) (s : State), Attends p s → portOf b.port = some p →
    ∀ x, s.streams.get p = some x → x.direction = .push →
    (x.sourceEnded = true ∨ x.senderCredit = 0 ∨ b.seq ≠ x.expected) →
    ∀ y, (s.scanners.get p).scan = some y → y.abortSent = false → y.state ≠ .ending →
    ∃ t, exec (.chunk (.device p) (.fields b)) s = .next (finish s t)
      ∧ t.streams.get p = none
      ∧ (t.scanners.get p).scan =
          some { y with abortSent := true, reason := some .device, code := none, resultGiven := true }
      ∧ (t.wires.get p).commands = (s.wires.get p).commands ++ [.scanAbort]
      ∧ Queued y.requester (.scanResult
          { port := p, reason := some .device, mode := y.mode, code := none
            forwarded := if y.mode = .image then some y.forwarded else none, reported := none
            started := y.started }) t
      ∧ Only (theseTold ([.stream p, .scanner p, .commands p] ++ heard p) (· = y.requester)) s t)
  ∧
  (∀ (p : PortId) (b : ChunkBody) (s : State), Attends p s → portOf b.port = some p → NobodyWaits s p →
    ∀ x, s.streams.get p = some x → x.direction = .push → x.sourceEnded = true →
    ∀ y, (s.scanners.get p).scan = some y → y.abortSent = false → y.state = .ending →
    ∃ t, exec (.chunk (.device p) (.fields b)) s = .next (finish s t)
      ∧ t.streams.get p = none
      ∧ t.scanners.get p = { s.scanners.get p with scan := none }
      ∧ t.claims.get p = afterScan s p y
      ∧ Queued y.requester (.scanResult
          { port := p, reason := some .device, mode := y.mode, code := none
            forwarded := if y.mode = .image then some y.forwarded else none, reported := none
            started := y.started }) t
      ∧ Only (theseTold ([.claims p, .stream p, .scanner p] ++ heard p) (· = y.requester)) s t)
  ∧
  (∀ (p : PortId) (b : ChunkBody) (s : State), Attends p s →
    (portOf b.port = some p → ∀ x, s.streams.get p = some x → x.direction ≠ .push) →
    ∃ t, exec (.chunk (.device p) (.fields b)) s = .next (finish s t)
      ∧ Only (these (heard p)) s t)
  ∧
  (∀ (l : LinkId) (s : State), Hears l s →
    ∃ t, exec (.chunk (.link l) .wrongLength) s = .next (finish s t)
      ∧ Only (these [.unit l]) s t)
  ∧
  ∀ (p : PortId) (s : State), Attends p s →
    ∃ t, exec (.chunk (.device p) .wrongLength) s = .next (finish s t)
      ∧ Only (these (heard p)) s t

/-- Credit is added to the sink's credit up to its cap, and a reached stall deadline gives the work up
(07_streams_and_kiosk_delivery.md, Forwarding to the sink, 07_streams_and_kiosk_delivery.md, Stalls). CREDIT
from an UP link for a PUSH stream of which it is partner completes with the count, at most 8, added to the
sink credit up to 255, and with the stall deadline absent when the count is not 0; a count of 0 changes
nothing in a stream whose deadline is present exactly while it runs. ADAPTER_CREDIT from an attended adapter
for its own PULL stream adds in the same way up to 8 and leaves the rest of such a stream alone. Any other
CREDIT reloads timers only. KIOSK_STALL at the reached deadline of a PULL stream aborts a job in flight not
being aborted KIOSK_STALL; PUSH_STALL at that of a PUSH stream aborts a scan STARTING or SCANNING
KIOSK_STALL; without a reached deadline nothing changes (log 3). An ADAPTER_CREDIT that names another port
counts as any other (log 16). -/
def Obligations.CreditsAndStallsPaceTheStream : Prop :=
  (∀ (l : LinkId) (p : PortId) (b : CreditBody) (s : State), Hears l s → portOf b.port = some p →
    ∀ x, s.streams.get p = some x → x.direction = .push → x.partner = l →
    (b.count ≠ 0 ∨ x.stall.isSome = stallRuns x) →
    ∃ t, exec (.credit l (.fields b)) s = .next (finish s t)
      ∧ t.streams.get p = some { x with
          sinkCredit := min 255 (x.sinkCredit + min 8 b.count.toNat)
          stall := if b.count = 0 ∧ x.sinkCredit ≤ 255 then x.stall else none }
      ∧ Only (these [.stream p, .unit l]) s t)
  ∧
  (∀ (l : LinkId) (b : CreditBody) (s : State), Hears l s →
    (∀ p, portOf b.port = some p → ∀ x, s.streams.get p = some x →
      x.direction ≠ .push ∨ x.partner ≠ l) →
    ∃ t, exec (.credit l (.fields b)) s = .next (finish s t)
      ∧ Only (these [.unit l]) s t)
  ∧
  (∀ (p : PortId) (b : CreditBody) (s : State), Attends p s → portOf b.port = some p →
    ∀ x, s.streams.get p = some x → x.direction = .pull → x.stall.isSome = stallRuns x →
    ∃ t, exec (.adapterCredit p b) s = .next (finish s t)
      ∧ t.streams.get p = some { x with sinkCredit := min 8 (x.sinkCredit + min 8 b.count.toNat) }
      ∧ Only (these (.stream p :: heard p)) s t)
  ∧
  (∀ (p : PortId) (b : CreditBody) (s : State), Attends p s →
    (portOf b.port = some p → ∀ x, s.streams.get p = some x → x.direction ≠ .pull) →
    ∃ t, exec (.adapterCredit p b) s = .next (finish s t)
      ∧ Only (these (heard p)) s t)
  ∧
  (∀ (p : PortId) (s : State), ∀ x, s.streams.get p = some x → x.direction = .pull →
    due s.tick x.stall = true → ∀ j, (s.printers.get p).inflight = some j → j.abortSent = false →
    ∃ t, exec (.kioskStall p) s = .next (finish s t)
      ∧ t.streams.get p = none
      ∧ (t.printers.get p).inflight = some { j with
          abortCause := some (.failed .kioskStall), abortSent := true }
      ∧ (t.wires.get p).commands = (s.wires.get p).commands ++ [.printAbort]
      ∧ Only (these [.stream p, .printer p, .waits p, .commands p]) s t)
  ∧
  (∀ (p : PortId) (s : State),
    (∀ x, s.streams.get p = some x → x.direction ≠ .pull ∨ due s.tick x.stall = false) →
    ∃ t, exec (.kioskStall p) s = .next (finish s t)
      ∧ t = s)
  ∧
  (∀ (p : PortId) (s : State), ∀ x, s.streams.get p = some x → x.direction = .push →
    due s.tick x.stall = true → ∀ y, (s.scanners.get p).scan = some y → y.abortSent = false →
    y.state ≠ .ending →
    ∃ t, exec (.pushStall p) s = .next (finish s t)
      ∧ t.streams.get p = none
      ∧ (t.scanners.get p).scan =
          some { y with abortSent := true, reason := some .kioskStall, code := none, resultGiven := true }
      ∧ (t.wires.get p).commands = (s.wires.get p).commands ++ [.scanAbort]
      ∧ Queued y.requester (.scanResult
          { port := p, reason := some .kioskStall, mode := y.mode, code := none
            forwarded := if y.mode = .image then some y.forwarded else none, reported := none
            started := y.started }) t
      ∧ Only (theseTold [.stream p, .scanner p, .waits p, .commands p] (· = y.requester)) s t)
  ∧
  ∀ (p : PortId) (s : State),
    (∀ x, s.streams.get p = some x → x.direction ≠ .push ∨ due s.tick x.stall = false) →
    ∃ t, exec (.pushStall p) s = .next (finish s t)
      ∧ t = s

/-- A notice replaces the queued one of its key in place, else joins the tail, and a full queue makes room
for it (07_streams_and_kiosk_delivery.md, Keyed notices and event items, 07_streams_and_kiosk_delivery.md,
Touch under pressure, 07_streams_and_kiosk_delivery.md, The outbound queues). Handing a notice that is no
touch record to the Delivery Queue of a DOWN link changes nothing. On an UP link: with exactly one queued
item of its key the notice takes that item's place with its LOST flag; with none and fewer than 32 items it
stands at the tail; in a full queue with a touch record the oldest one leaves, GAP becomes pending and the
notice stands at the tail; in a full queue without a touch record the oldest item leaves and the notice
stands at the tail with LOST. No other queue changes, and nothing else but the contacts of a discarded DOWN. -/
def Obligations.DeliveryKeepsOnePerKeyAndMakesRoom : Prop :=
  (∀ (l : LinkId) (b : NoticeBody) (s : State), (s.link l).up = false → deliver l b s = s)
  ∧
  ∀ (l : LinkId) (b : NoticeBody) (s : State), (s.link l).up = true → (∀ r, b ≠ .touch r) →
    Only (told (· = l)) s (deliver l b s)
      ∧ (∀ n i, (s.link l).queue[n]? = some i → keyOf b ≠ none → keyOf i.body = keyOf b →
          (∀ m j, (s.link l).queue[m]? = some j → keyOf j.body = keyOf b → m = n) →
          ((deliver l b s).link l).queue = (s.link l).queue.set n ⟨b, i.lost⟩
            ∧ (deliver l b s).panels = s.panels)
      ∧ ((keyOf b = none ∨ ∀ j ∈ (s.link l).queue, keyOf j.body ≠ keyOf b) →
          ((s.link l).queue.length < 32 →
            ((deliver l b s).link l).queue = (s.link l).queue ++ [⟨b, false⟩]
              ∧ (deliver l b s).panels = s.panels)
          ∧ (∀ q r i, 32 ≤ (s.link l).queue.length → (s.link l).queue = q ++ i :: r →
              (Item.touch? i).isSome = true → (∀ j ∈ q, Item.touch? j = none) →
              ((deliver l b s).link l).queue = q ++ r ++ [⟨b, false⟩]
                ∧ ((deliver l b s).link l).gap = true)
          ∧ (32 ≤ (s.link l).queue.length → (∀ j ∈ (s.link l).queue, Item.touch? j = none) →
              ((deliver l b s).link l).queue = (s.link l).queue.tail ++ [⟨b, true⟩]
                ∧ (deliver l b s).panels = s.panels))

/-- The end of a frame frees the transmitter; replies go first, notices and streams take turns, and a stream
frame moves its record (07_streams_and_kiosk_delivery.md, The link transmitters,
07_streams_and_kiosk_delivery.md, The outbound queues, 07_streams_and_kiosk_delivery.md, Forwarding to the
sink, 07_streams_and_kiosk_delivery.md, Owed credit and the four buffers, 03_print_jobs.md, The job in
flight, 04_scanning.md, Image scans, 04_scanning.md, How a scan leaves flight). FRAME_SENT completes as
follows: when the frame was a reply, other than the OK of a BYE, the transmitter is idle, the reply slot is
empty and no request is outstanding; when it was a notice, a CREDIT or a CHUNK, the transmitter is idle and
nothing else changes; when nothing was being sent, nothing changes, by the model's choice (log 3).
DEVICE_FRAME_SENT leaves the device link's transmitter idle and changes nothing else. An idle transmitter of
an UP link takes a reply first, with OVERRUN when overrun is pending; without one, on the turn NOTICES or
with no stream frame ready, it takes the head of the queue and gives the turn to STREAMS; on the turn
STREAMS or with an empty queue it takes the frame of the first stream ready in the round behind the last
port served, and gives the turn to NOTICES. A CREDIT carries the owed credit of a PULL stream, which becomes
sender credit. A CHUNK of a PUSH stream leaves its buffers, costs one sink credit, is owed afresh, and its
bytes count as forwarded (past 32 bits a free value, log 10); the last one buffered of a scan ENDING ends it
with SCAN_RESULT DONE, where no take and no closing holder waits. An idle device link's transmitter takes a
command first, then a PULL stream's head chunk while the adapter has given credit and forward is not held,
or the owed CREDIT of a PUSH stream whose source has not ended. A chunk with LAST makes a PRINTING job
ENDING and the resume state of a STALLED or HELD one ENDING, told in JOB_STATE. -/
def Obligations.FrameSentFreesTheTransmitter : Prop :=
  (∀ (l : LinkId) (s : State), ∀ r, replySending s l = some r → (r.kind ≠ Kind.bye ∨ r.code ≠ .ok) →
    ∃ t, exec (.frameSent l) s = .next (finish s t)
      ∧ (t.link l).sending = none ∧ (t.link l).reply = none ∧ (t.link l).outstanding = false
      ∧ (t.link l).up = (s.link l).up ∧ (t.link l).silence = (s.link l).silence
      ∧ Only (these [.transmitter l, .slot l, .unit l]) s t)
  ∧
  (∀ (l : LinkId) (s : State), replySending s l = none →
    ∃ t, exec (.frameSent l) s = .next (finish s t)
      ∧ (t.link l).sending = none ∧ (t.link l).turn = (s.link l).turn
      ∧ (t.link l).lastPort = (s.link l).lastPort
      ∧ Only (these [.transmitter l]) s t)
  ∧
  (∀ (p : PortId) (s : State),
    ∃ t, exec (.deviceFrameSent p) s = .next (finish s t)
      ∧ (t.wires.get p).sending = none
      ∧ Only (these [.deviceTransmitter p]) s t)
  ∧
  (∀ (l : LinkId) (r : Reply) (s : State), (s.link l).up = true → (s.link l).sending = none →
    (s.link l).reply = some r →
    ∃ t, serveLink l s = some t
      ∧ (t.link l).sending = some (.reply r (s.link l).overrun) ∧ (t.link l).overrun = false
      ∧ (t.link l).turn = (s.link l).turn ∧ (t.link l).lastPort = (s.link l).lastPort
      ∧ Only (these [.transmitter l, .overrun l]) s t)
  ∧
  (∀ (l : LinkId) (i : Item) (q : List Item) (s : State), (s.link l).up = true →
    (s.link l).sending = none → (s.link l).reply = none → (s.link l).queue = i :: q →
    ((s.link l).turn = .notices ∨ NoStreamReady l s) →
    ∃ t, serveLink l s = some t
      ∧ (t.link l).sending = some (.notice i) ∧ (t.link l).queue = q ∧ (t.link l).turn = .streams
      ∧ (t.link l).lastPort = (s.link l).lastPort
      ∧ Only (these [.transmitter l, .queue l]) s t)
  ∧
  (∀ (l : LinkId) (p : PortId) (s : State), TurnOfStreams l s → FirstInRound l p s →
    ∀ x, s.streams.get p = some x → CreditReady l x →
    ∃ t, serveLink l s = some t
      ∧ (t.link l).sending = some (.credit p x.owed)
      ∧ (t.link l).turn = .notices ∧ (t.link l).lastPort = p
      ∧ t.streams.get p = some { x with
          senderCredit := x.senderCredit + x.owed, owed := 0
          stall := if x.stallFrozen = true then none
            else if x.stall = none then some (stallEnd s p) else x.stall }
      ∧ Only (these [.transmitter l, .stream p]) s t)
  ∧
  (∀ (l : LinkId) (p : PortId) (s : State), TurnOfStreams l s → FirstInRound l p s →
    ∀ x, s.streams.get p = some x → ChunkReady l x → ∀ c rest, x.buffers = c :: rest →
    ∀ y, (s.scanners.get p).scan = some y → y.abortSent = false →
    (rest ≠ [] ∨ x.sourceEnded = false ∨ y.state ≠ .ending) →
    ∃ t n, serveLink l s = some t
      ∧ (t.link l).sending = some (.chunk p c)
      ∧ (t.link l).turn = .notices ∧ (t.link l).lastPort = p
      ∧ t.streams.get p = some { x with
          buffers := rest, sinkCredit := x.sinkCredit - 1, owed := x.owed + 1
          stall := if x.sinkCredit = 1 ∧ rest ≠ [] then
            (if x.stall = none then some (stallEnd s p) else x.stall) else none }
      ∧ t.scanners.get p = { s.scanners.get p with scan := some { y with forwarded := n } }
      ∧ (y.forwarded.toNat + c.data.length < 2 ^ 32 → n.toNat = y.forwarded.toNat + c.data.length)
      ∧ Only (these [.transmitter l, .stream p, .scanner p, .waits p]) s t)
  ∧
  (∀ (l : LinkId) (p : PortId) (s : State), TurnOfStreams l s → FirstInRound l p s → NobodyWaits s p →
    ∀ x, s.streams.get p = some x → ChunkReady l x → x.sourceEnded = true →
    ∀ c, x.buffers = [c] →
    ∀ y, (s.scanners.get p).scan = some y → y.abortSent = false → y.state = .ending → y.mode = .image →
    y.reason = none → ∀ m, y.reported = some m →
    ∃ t n, serveLink l s = some t
      ∧ (t.link l).sending = some (.chunk p c)
      ∧ (t.link l).turn = .notices ∧ (t.link l).lastPort = p
      ∧ t.streams.get p = none
      ∧ t.scanners.get p = { s.scanners.get p with scan := none }
      ∧ t.claims.get p = afterScan s p y
      ∧ Queued y.requester (scanTold p { y with forwarded := n } 0 m) t
      ∧ (y.forwarded.toNat + c.data.length < 2 ^ 32 → n.toNat = y.forwarded.toNat + c.data.length)
      ∧ Only (theseTold [.transmitter l, .stream p, .scanner p, .claims p, .waits p]
          (· = y.requester)) s t)
  ∧
  (∀ (p : PortId) (c : DeviceCommand) (rest : List DeviceCommand) (s : State),
    (s.wires.get p).sending = none → (s.wires.get p).commands = c :: rest →
    ∃ t, serveDevice p s = some t
      ∧ (t.wires.get p).sending = some (.command c) ∧ (t.wires.get p).commands = rest
      ∧ Only (these [.deviceTransmitter p, .commands p]) s t)
  ∧
  (∀ (p : PortId) (s : State), (s.wires.get p).sending = none → (s.wires.get p).commands = [] →
    ∀ x, s.streams.get p = some x → x.direction = .pull → 0 < x.sinkCredit → x.forwardHeld = false →
    x.stall.isSome = stallRuns x → ∀ c rest, x.buffers = c :: rest →
    ∃ t, serveDevice p s = some t
      ∧ (t.wires.get p).sending = some (.chunk p c)
      ∧ (c.last = false →
          t.streams.get p = some { x with
              buffers := rest, sinkCredit := x.sinkCredit - 1, owed := x.owed + 1 }
            ∧ Only (these [.deviceTransmitter p, .stream p]) s t)
      ∧ (c.last = true → ∀ j, (s.printers.get p).inflight = some j → j.abortSent = false →
          (j.state = .printing →
            (t.printers.get p).inflight = some { j with state := .ending }
              ∧ (∀ z, t.streams.get p = some z → z.stallFrozen = true ∧ z.stall = none)
              ∧ Queued (.kiosk j.kiosk) (jobTold p j (.live .ending) false) t)
          ∧ (j.state = .stalled ∨ j.state = .held →
            (t.printers.get p).inflight = some { j with resume := some .ending }
              ∧ Queued (.kiosk j.kiosk) (.jobState
                  { id := j.id, tag := j.tag, port := p, report := .live j.state, printed := j.printed
                    fault := j.fault, byStaff := false }) t)
          ∧ (t.streams.get p).map (fun z => (z.buffers, z.sinkCredit, z.owed)) =
              some (rest, x.sinkCredit - 1, x.owed + 1)
          ∧ Only (theseTold [.deviceTransmitter p, .stream p, .printer p, .waits p]
              (· = .kiosk j.kiosk)) s t))
  ∧
  ∀ (p : PortId) (s : State), (s.wires.get p).sending = none → (s.wires.get p).commands = [] →
    ∀ x, s.streams.get p = some x → x.direction = .push → 0 < x.owed → x.sourceEnded = false →
    x.stall.isSome = stallRuns x →
    ∃ t, serveDevice p s = some t
      ∧ (t.wires.get p).sending = some (.credit p x.owed)
      ∧ t.streams.get p = some { x with senderCredit := x.senderCredit + x.owed, owed := 0 }
      ∧ Only (these [.deviceTransmitter p, .stream p]) s t

/-- PORT_SET stores the clamped record and brings a class change about, and PORT_QUERY reads the port
(08_device_ports_and_adapters.md, Port configuration, 01_claims_and_grants.md, Idle expiry,
05_touch_panels_coordinates_and_contacts.md, Cue tagging, 06_touch_routing_and_staff_sequences.md, The
sequence trigger, 09_power_levels.md, Removal of votes, 08_device_ports_and_adapters.md, Reading a port).
For a listening staff link and a port number 0 to 11, PORT_SET with a value outside its set is refused
BAD_VALUE, and one with another class while work, a check or staff hold the port is refused BUSY; nothing
else changes. Otherwise the reply is OK with the record as stored, clamped field by field. A cue enable
going off removes the pending cue. With the same class a changed idle expiry re-arms the holder's deadline,
and nothing else changes. A change of class removes the votes, the identity and the waiting commands and
sets the trigger; an ABSENT port stays ABSENT without mismatch flag; another port becomes ABSENT for UNUSED,
its waits dropped and its level UNKNOWN, and else IDENTIFYING with IDENT_ASK sent, each with cause
CLASS_CHANGE. PORT_QUERY on a link completes with OK and the fields of the port, from a kiosk without
admission too, and only a holder's own re-arms its deadline. The staff console's carries the milliseconds
left on the response and the silence timer, rounded up to tens, 0 for a deadline already reached by the
model's choice (log 35). That the waits, and the document state of a port that does not become ABSENT, are
kept at a change of class, and the order of what follows it, are the model's choice too (logs 8, 18, 19,
44). -/
def Obligations.PortSetReplacesTheConfiguration : Prop :=
  (∀ (p : PortId) (b : PortSetBody) (s : State), portOf b.port = some p → Listens .staff s →
    ∀ c, configOf b = some c → c.cls = s.cls p →
    ∃ t, exec (.portSet (.fields b)) s = .next (finish s t)
      ∧ Stores b c
      ∧ t.configs.get p = c
      ∧ t.claims.get p = (if (s.configs.get p).idleS = c.idleS then s.claims.get p
          else withHolder (fun d => { d with
            deadline := if d.suspended || ownScan s p d.kiosk then none else endOf s (c.idleS * 10000) })
            (s.claims.get p))
      ∧ (t.panels.get p).cue = cueAfterSet s p c
      ∧ Replies .staff Kind.portSet .ok (.config c) t
      ∧ Only (these ([.config p, .claims p, .cue p] ++ asked .staff)) s t)
  ∧
  (∀ (p : PortId) (b : PortSetBody) (s : State), portOf b.port = some p → Listens .staff s →
    ∀ c, configOf b = some c → c.cls ≠ s.cls p → ClassFree p s → s.cond p = .absent →
    ∃ t, exec (.portSet (.fields b)) s = .next (finish s t)
      ∧ t.configs.get p = c
      ∧ t.cond p = .absent ∧ (t.ctls.get p).identity = none ∧ (t.ctls.get p).mismatch = false
      ∧ (t.ctls.get p).silence = none ∧ (t.ctls.get p).cause = (s.ctls.get p).cause
      ∧ (t.wires.get p).commands = []
      ∧ (∀ k, (t.power.get p).votes.get k = none)
      ∧ (t.panels.get p).seqState = triggerAfterSet s p c ∧ (t.panels.get p).cue = cueAfterSet s p c
      ∧ Replies .staff Kind.portSet .ok (.config c) t
      ∧ Only (these ([.config p, .cue p, .sequence p, .votes p, .condition p, .timers p, .commands p]
          ++ asked .staff)) s t)
  ∧
  (∀ (p : PortId) (b : PortSetBody) (s : State), portOf b.port = some p → Listens .staff s →
    ∀ c, configOf b = some c → c.cls ≠ s.cls p → c.cls ≠ .unused → ClassFree p s → s.cond p ≠ .absent →
    ∃ t, exec (.portSet (.fields b)) s = .next (finish s t)
      ∧ t.configs.get p = c
      ∧ t.cond p = .identifying ∧ (t.ctls.get p).cause = .classChange
      ∧ (t.ctls.get p).identity = none ∧ (t.ctls.get p).mismatch = (s.ctls.get p).mismatch
      ∧ (t.ctls.get p).fault = (s.ctls.get p).fault
      ∧ (t.wires.get p).commands = [.identAsk] ∧ .identAsk ∈ (t.ctls.get p).waits
      ∧ (∀ k, (t.power.get p).votes.get k = none)
      ∧ (t.panels.get p).seqState = triggerAfterSet s p c ∧ (t.panels.get p).cue = cueAfterSet s p c
      ∧ (s.cond p = .serving → (t.panels.get p).contacts = [])
      ∧ Replies .staff Kind.portSet .ok (.config c) t
      ∧ (HasSlack .staff s → Queued .staff
          (.portState { port := p, cls := c.cls, cond := .identifying, before := s.cond p
                        cause := .classChange, fault := none, identity := none, reportedClass := none }) t)
      ∧ Only (theseTold ([.config p, .cue p, .sequence p, .votes p, .condition p, .waits p, .commands p]
          ++ asked .staff) fun _ => True) s t)
  ∧
  (∀ (p : PortId) (b : PortSetBody) (s : State), portOf b.port = some p → Listens .staff s →
    ∀ c, configOf b = some c → c.cls ≠ s.cls p → c.cls = .unused → ClassFree p s → s.cond p ≠ .absent →
    ∃ t, exec (.portSet (.fields b)) s = .next (finish s t)
      ∧ t.configs.get p = c
      ∧ t.cond p = .absent ∧ (t.ctls.get p).cause = .classChange
      ∧ (t.ctls.get p).identity = none ∧ (t.ctls.get p).mismatch = false
      ∧ (t.ctls.get p).waits = [] ∧ (t.ctls.get p).response = none ∧ (t.ctls.get p).silence = none
      ∧ (t.wires.get p).commands = []
      ∧ (t.power.get p).reached = none ∧ (t.power.get p).moving = false
      ∧ (t.scanners.get p).document = false
      ∧ (∀ k, (t.power.get p).votes.get k = none)
      ∧ (t.panels.get p).seqState = triggerAfterSet s p c ∧ (t.panels.get p).cue = cueAfterSet s p c
      ∧ (s.cond p = .serving → (t.panels.get p).contacts = [])
      ∧ Replies .staff Kind.portSet .ok (.config c) t
      ∧ Only (theseTold ([.config p, .cue p, .sequence p, .votes p, .condition p, .waits p, .commands p,
          .timers p, .level p, .scanner p] ++ asked .staff) fun _ => True) s t)
  ∧
  (∀ (p : PortId) (b : PortSetBody) (s : State), portOf b.port = some p → Listens .staff s →
    (classOf b.cls = none ∨ queueModeOf b.queueMode = none ∨ yesNoOf b.autoResume = none
      ∨ yesNoOf b.cueEnable = none ∨ (b.flags.getLsbD 0 = true ∧ 23 < b.idleDest.toNat)) →
    ∃ t, exec (.portSet (.fields b)) s = .next (finish s t)
      ∧ Replies .staff Kind.portSet .badValue .bare t
      ∧ Only (these (asked .staff)) s t)
  ∧
  (∀ (p : PortId) (b : PortSetBody) (s : State), portOf b.port = some p → Listens .staff s →
    ∀ c, configOf b = some c → c.cls ≠ s.cls p → ¬ ClassFree p s →
    ∃ t, exec (.portSet (.fields b)) s = .next (finish s t)
      ∧ Replies .staff Kind.portSet .busy .bare t
      ∧ Only (these (asked .staff)) s t)
  ∧
  (∀ (k : KioskId) (p : PortId) (b : Byte) (s : State), portOf b = some p → Listens (.kiosk k) s →
    Reaches k p anyClass s →
    ∃ t, exec (.portQuery (.kiosk k) (.fields b)) s = .next (finish s t)
      ∧ Replies (.kiosk k) Kind.portQuery .ok (.portView (s.portView p)) t
      ∧ t.claims.get p = afterActivity s p (.kiosk k)
      ∧ Only (these (.claims p :: asked (.kiosk k))) s t)
  ∧
  ∀ (p : PortId) (b : Byte) (s : State), portOf b = some p → Listens .staff s →
    ∃ t, exec (.portQuery .staff (.fields b)) s = .next (finish s t)
      ∧ Replies .staff Kind.portQuery .ok (.staffPortView (s.portView p) (s.staffPortView p)) t
      ∧ s.portView p =
          { port := p, cls := s.cls p, cond := s.cond p
            fault := if s.cond p = .stalled then (s.ctls.get p).fault else none
            reached := (s.power.get p).reached, inStaffHands := (s.takes.get p).state != .free
            hall := s.hall
            held := if s.cls p = .scanner ∨ s.cls p = .panel then some (s.holder p).isSome else none
            waiters := if s.cls p = .scanner ∨ s.cls p = .panel then
              some (waitersOf (s.claims.get p)).length else none
            jobInFlight := if s.cls p = .printer then some (s.printers.get p).inflight.isSome else none
            queuedJobs := if s.cls p = .printer then some (s.printers.get p).queue.length else none }
      ∧ (s.staffPortView p).config = s.configs.get p ∧ (s.staffPortView p).check = (s.ctls.get p).check
      ∧ (s.staffPortView p).identity = (s.ctls.get p).identity
      ∧ (s.staffPortView p).mismatch = (s.ctls.get p).mismatch
      ∧ (s.staffPortView p).floor = (s.power.get p).floor
      ∧ (s.staffPortView p).ceiling = (s.power.get p).ceiling
      ∧ (s.staffPortView p).target = s.targetOf p
      ∧ (s.staffPortView p).responseLeft =
          ((s.ctls.get p).response.map fun d => (left s.tick d + 99) / 100 * 10)
      ∧ (s.staffPortView p).silenceLeft =
          ((s.ctls.get p).silence.map fun d => (left s.tick d + 99) / 100 * 10)
      ∧ Only (these (asked .staff)) s t

/-- PORT_RESET ends the work of the port, clears its adapter and keeps claims, queued jobs, votes and limits
(08_device_ports_and_adapters.md, Port reset, 01_claims_and_grants.md, Promotion, 03_print_jobs.md, Jobs and
the rest of the hub, 04_scanning.md, Scans and the port's condition, 09_power_levels.md, Power transitions).
For a listening staff link and a port in use that is not ABSENT, PORT_RESET completes with OK RESETTING and
PORT_CLEAR sent, the only wait being its own with the response time from now. A port not RESETTING before
becomes RESETTING with cause PORT_RESET, its fault removed, its identity kept and no other command waiting;
a job in flight is told its end, FAILED PORT_RESET or as its abort cause gives, the requester of a scan in
flight whose result was not given gets SCAN_RESULT ABORTED PORT_RESET (read in a queue of at most 24 items),
the scan, the stream of either, the document state and a panel's contacts go, a running check ends ERROR,
and a transition in flight ends with the level UNKNOWN. The queued jobs stay, and without a pending take or
a scan the takeover record and the claims too, but that leaving CHECKING promotes the head waiter of a list
without a holder in takeover state NONE and an OPEN hall; everything else stays. A port already RESETTING is
only sent PORT_CLEAR again. An ABSENT or UNUSED port is refused NO_SUCH_PORT. That a port already RESETTING
awaits its PORT_CLEAR afresh without a PORT_STATE, and that its OK reply carries RESETTING, is the model's
reading (log 36). -/
def Obligations.PortResetStartsTheAdapterOver : Prop :=
  (∀ (p : PortId) (b : Byte) (s : State), portOf b = some p → Listens .staff s → s.cls p ≠ .unused →
    s.cond p ≠ .absent → s.cond p ≠ .resetting →
    ∃ t, exec (.portReset (.fields b)) s = .next (finish s t)
      ∧ t.cond p = .resetting ∧ (t.ctls.get p).cause = .portReset ∧ (t.ctls.get p).fault = none
      ∧ (t.ctls.get p).identity = (s.ctls.get p).identity
      ∧ (t.ctls.get p).waits = [.portClear]
      ∧ (t.ctls.get p).response = some (after s.tick ((s.configs.get p).responseMs * 10))
      ∧ (t.ctls.get p).check = brokenCheck s p
      ∧ (t.wires.get p).commands = [.portClear]
      ∧ (t.printers.get p) = ⟨(s.printers.get p).queue, none, gapAfterJob s p⟩
      ∧ (t.scanners.get p).scan = none ∧ (t.scanners.get p).document = false
      ∧ ((s.printers.get p).inflight ≠ none ∨ (s.scanners.get p).scan ≠ none → t.streams.get p = none)
      ∧ (s.cond p = .serving → (t.panels.get p).contacts = [])
      ∧ (t.power.get p).moving = false
      ∧ (t.power.get p).reached = (if (s.power.get p).moving then none else (s.power.get p).reached)
      ∧ ((s.scanners.get p).scan = none →
          ((s.takes.get p).state = .free ∨ (s.takes.get p).state = .staffHold) →
          t.takes.get p = s.takes.get p
            ∧ (s.cond p ≠ .checking ∨ s.holder p ≠ none → t.claims.get p = s.claims.get p)
            ∧ (s.cond p = .checking → s.holder p = none → ListOrdered (s.claims.get p) →
                t.claims.get p = promoted s p
                  ((s.takes.get p).state == .free && s.hall == .openHall) (s.claims.get p)))
      ∧ (∀ j, (s.printers.get p).inflight = some j → HasSlack (.kiosk j.kiosk) s →
          (s.scanners.get p).scan = none →
          Queued (.kiosk j.kiosk) (stoppedJob p j .portReset) t)
      ∧ (∀ x, (s.scanners.get p).scan = some x → x.resultGiven = false → HasSlack x.requester s →
          Queued x.requester (scanCut p x .portReset) t)
      ∧ Replies .staff Kind.portReset .ok (.condition .resetting) t
      ∧ (HasSlack .staff s → (s.scanners.get p).scan = none →
          Queued .staff (portTold s p .resetting .portReset none (s.ctls.get p).identity none) t)
      ∧ Only (theseTold ([.claims p, .takeover p, .printer p, .scanner p, .stream p, .condition p,
          .waits p, .check p, .level p, .commands p] ++ asked .staff) fun _ => True) s t)
  ∧
  (∀ (p : PortId) (b : Byte) (s : State), portOf b = some p → Listens .staff s → s.cls p ≠ .unused →
    s.cond p = .resetting →
    ∃ t, exec (.portReset (.fields b)) s = .next (finish s t)
      ∧ (t.ctls.get p).waits = [.portClear]
      ∧ (t.ctls.get p).response = some (after s.tick ((s.configs.get p).responseMs * 10))
      ∧ (t.wires.get p).commands = (s.wires.get p).commands ++ [.portClear]
      ∧ Replies .staff Kind.portReset .ok (.condition .resetting) t
      ∧ Only (these ([.waits p, .commands p] ++ asked .staff)) s t)
  ∧
  ∀ (p : PortId) (b : Byte) (s : State), portOf b = some p → Listens .staff s →
    (s.cls p = .unused ∨ s.cond p = .absent) →
    ∃ t, exec (.portReset (.fields b)) s = .next (finish s t)
      ∧ Replies .staff Kind.portReset .noSuchPort .bare t
      ∧ Only (these (asked .staff)) s t

/-- CHECK starts on an idle port at READY, ECHO and TEST_RESULT take it step by step to its verdict
(08_device_ports_and_adapters.md, The port check, 01_claims_and_grants.md, Promotion,
05_touch_panels_coordinates_and_contacts.md, Cutting contacts). For a listening staff link and a port in
use, CHECK on a SERVING port at READY that is idle completes with OK: the port is CHECKING with cause
CHECK_START, its contacts are gone, the record begins afresh at step ECHO 1 with the duration clamped, 32
bytes of 00 are sent to the adapter, and the RUNNING record goes to staff. Otherwise it is refused
NO_SUCH_PORT, BUSY, PORT_FAULT, POWER_HELD or BUSY in that order. From an attended adapter, an ECHO of the
step's bytes leads to the next pattern or, after ECHO 4, to echo PASS and TEST_START; another ECHO ends the
check DONE with echo FAIL, and a TEST_RESULT at the step TEST ends it DONE with both verdicts, a mechanism
that has failed staying so. An ended check leaves the port SERVING, or STALLED with a fault outstanding. At
any other step, and without a running check, both only reload timers and end their wait. -/
def Obligations.CheckRunsToItsVerdict : Prop :=
  (∀ (p : PortId) (b : CheckBody) (s : State), portOf b.port = some p → Listens .staff s →
    s.cls p ≠ .unused → s.cond p = .serving → (s.power.get p).reached = some .ready →
    s.holder p = none → (s.printers.get p).inflight = none → (s.scanners.get p).scan = none →
    (s.takes.get p).state = .free →
    ∃ t, exec (.check (.fields b)) s = .next (finish s t)
      ∧ t.cond p = .checking ∧ (t.ctls.get p).cause = .checkStart
      ∧ (t.ctls.get p).check =
          { status := .running, step := some .echo1, echo := .notRun, adapter := .notRun
            mechanism := .notRun, disturbed := false, fault := none
            duration := some (if b.duration = 0 then 3 else min 10 b.duration.toNat)
            started := some s.tick, ended := none }
      ∧ (t.ctls.get p).fault = (s.ctls.get p).fault ∧ (t.ctls.get p).identity = (s.ctls.get p).identity
      ∧ (t.panels.get p).contacts = []
      ∧ (t.wires.get p).commands = (s.wires.get p).commands ++ [.echo (List.replicate 32 0)]
      ∧ .echo ∈ (t.ctls.get p).waits
      ∧ Queued .staff (.checkResult p (t.ctls.get p).check) t
      ∧ Replies .staff Kind.check .ok .bare t
      ∧ Only (theseTold ([.condition p, .check p, .waits p, .commands p] ++ asked .staff)
          fun _ => True) s t)
  ∧
  (∀ (p : PortId) (b : CheckBody) (s : State), portOf b.port = some p → Listens .staff s →
    (s.cls p = .unused ∨ s.cond p ≠ .serving ∨ (s.power.get p).reached ≠ some .ready ∨ s.holder p ≠ none
      ∨ (s.printers.get p).inflight ≠ none ∨ (s.scanners.get p).scan ≠ none
      ∨ (s.takes.get p).state ≠ .free) →
    ∃ t, exec (.check (.fields b)) s = .next (finish s t)
      ∧ Replies .staff Kind.check
          (if s.cls p = .unused ∨ s.cond p = .absent then .noSuchPort
           else if s.cond p = .checking then .busy
           else if s.cond p ≠ .serving then .portFault
           else if (s.power.get p).reached ≠ some .ready then .powerHeld
           else .busy) .bare t
      ∧ Only (these (asked .staff)) s t)
  ∧
  (∀ (p : PortId) (data : List Byte) (s : State), Attends p s → (s.ctls.get p).check.status = .running →
    ∀ st, (s.ctls.get p).check.step = some st → st ≠ .test → data = echoPattern st →
    ∃ t, exec (.echo p data) s = .next (finish s t)
      ∧ (t.ctls.get p).check =
          (match st with
           | .echo1 => { (s.ctls.get p).check with step := some .echo2 }
           | .echo2 => { (s.ctls.get p).check with step := some .echo3 }
           | .echo3 => { (s.ctls.get p).check with step := some .echo4 }
           | _ => { (s.ctls.get p).check with step := some .test, echo := .pass })
      ∧ (t.wires.get p).commands = (s.wires.get p).commands ++
          [match st with
           | .echo1 => .echo (List.replicate 32 0xFF)
           | .echo2 => .echo (List.replicate 32 0x55)
           | .echo3 => .echo (List.replicate 32 0xAA)
           | _ => .testStart ((s.ctls.get p).check.duration.getD 0)]
      ∧ Only (these ([.check p, .commands p] ++ heard p)) s t)
  ∧
  (∀ (p : PortId) (data : List Byte) (s : State), Attends p s → (s.ctls.get p).check.status = .running →
    s.cond p = .checking →
    ∀ st, (s.ctls.get p).check.step = some st → st ≠ .test → data ≠ echoPattern st →
    ∃ t, exec (.echo p data) s = .next (finish s t)
      ∧ (t.ctls.get p).check = { (s.ctls.get p).check with
          status := .done, step := none, echo := .fail, ended := some s.tick }
      ∧ t.cond p = (if (s.ctls.get p).fault = none then .serving else .stalled)
      ∧ (t.ctls.get p).cause = .checkEnd ∧ (t.ctls.get p).fault = (s.ctls.get p).fault
      ∧ (HasSlack .staff s → Queued .staff (.checkResult p (t.ctls.get p).check) t)
      ∧ Only (theseTold ([.check p, .condition p, .claims p, .printer p, .stream p, .commands p] ++ heard p)
          fun _ => True) s t)
  ∧
  (∀ (p : PortId) (flags : Byte) (s : State), Attends p s → (s.ctls.get p).check.status = .running →
    s.cond p = .checking → (s.ctls.get p).check.step = some .test →
    ∃ t, exec (.testResult p flags) s = .next (finish s t)
      ∧ (t.ctls.get p).check = { (s.ctls.get p).check with
          status := .done, step := none, ended := some s.tick
          adapter := if flags.getLsbD 0 then .pass else .fail
          mechanism := if (s.ctls.get p).check.mechanism = .fail ∨ flags.getLsbD 1 = false then .fail
            else .pass }
      ∧ t.cond p = (if (s.ctls.get p).fault = none then .serving else .stalled)
      ∧ (t.ctls.get p).cause = .checkEnd ∧ (t.ctls.get p).fault = (s.ctls.get p).fault
      ∧ (holderOf (s.claims.get p) = none → s.hall = .openHall → (s.takes.get p).state = .free →
          ∀ c ∈ (waitersOf (s.claims.get p)).head?, t.holder p = some c.kiosk)
      ∧ (HasSlack .staff s → Queued .staff (.checkResult p (t.ctls.get p).check) t)
      ∧ Only (theseTold ([.check p, .condition p, .claims p, .printer p, .stream p, .commands p] ++ heard p)
          fun _ => True) s t)
  ∧
  (∀ (p : PortId) (data : List Byte) (s : State), Attends p s →
    ((s.ctls.get p).check.status ≠ .running ∨ (s.ctls.get p).check.step = none
      ∨ (s.ctls.get p).check.step = some .test) →
    ∃ t, exec (.echo p data) s = .next (finish s t)
      ∧ (t.ctls.get p).waits = (s.ctls.get p).waits.filter (· ≠ .echo)
      ∧ Only (these (heard p)) s t)
  ∧
  ∀ (p : PortId) (flags : Byte) (s : State), Attends p s →
    ((s.ctls.get p).check.status ≠ .running ∨ (s.ctls.get p).check.step ≠ some .test) →
    ∃ t, exec (.testResult p flags) s = .next (finish s t)
      ∧ (t.ctls.get p).waits = (s.ctls.get p).waits.filter (· ≠ .testStart)
      ∧ Only (these (heard p)) s t

/-- ANNOUNCE makes a port IDENTIFYING, and IDENT of its class makes it SERVING at the level reported
(08_device_ports_and_adapters.md, Bringing an adapter in, 08_device_ports_and_adapters.md, Faults and
clearing, 08_device_ports_and_adapters.md, Port reset, 09_power_levels.md, Power transitions,
04_scanning.md, Scans and the port's condition, 08_device_ports_and_adapters.md, Adapter frames). After the
start-up read ANNOUNCE completes so. On an ABSENT port in use without mismatch flag the port becomes
IDENTIFYING with cause ANNOUNCE, IDENT_ASK is sent and awaited, and the silence timer starts. On an
IDENTIFYING port IDENT_ASK is sent again. On a RESETTING port it ends the PORT_CLEAR wait and the port
becomes IDENTIFYING with cause ANNOUNCE. On a SERVING, STALLED or CHECKING port the work of the port ends as
at UNRESPONSIVE, a scan whose result was not given with SCAN_RESULT ABORTED DEVICE_SILENT (read in a queue
of at most 24 items), and the port is IDENTIFYING with cause ADAPTER_BACK. IDENT on an IDENTIFYING port of
the class it reports stores the identity, removes a held fault, hands on the level, one above 3 as OFF, and
makes the port SERVING; with another class or UNUSED the port becomes ABSENT with cause CLASS_MISMATCH and
the mismatch flag, its identity goes, and a scan not yet aborted ends DEVICE_LOST, or GRANT_ENDED where its
requester is the holder, whose grant the model ends first (read likewise, on a SCANNER port without queued
jobs). IDENT in another attended condition only reloads timers. ANNOUNCE or IDENT on an UNRESPONSIVE port
makes it IDENTIFYING with cause ADAPTER_BACK. The order of what follows is the model's reading (log 8). -/
def Obligations.AdaptersAreBroughtIn : Prop :=
  (∀ (p : PortId) (s : State), s.loader.starting = false → s.cond p = .absent → s.cls p ≠ .unused →
    (s.ctls.get p).mismatch = false →
    ∃ t, exec (.announce p) s = .next (finish s t)
      ∧ t.cond p = .identifying ∧ (t.ctls.get p).cause = .announce
      ∧ (t.ctls.get p).silence = some (after s.tick 30000)
      ∧ (t.ctls.get p).identity = (s.ctls.get p).identity
      ∧ (t.wires.get p).commands = (s.wires.get p).commands ++ [.identAsk]
      ∧ .identAsk ∈ (t.ctls.get p).waits
      ∧ Queued .staff (portTold s p .identifying .announce none (s.ctls.get p).identity none) t
      ∧ (t.ctls.get p).check = brokenCheck s p
      ∧ Only (theseTold ([.condition p, .check p, .commands p] ++ heard p) (· = .staff)) s t)
  ∧
  (∀ (p : PortId) (s : State), s.loader.starting = false → s.cond p = .identifying →
    ∃ t, exec (.announce p) s = .next (finish s t)
      ∧ (t.ctls.get p).silence = some (after s.tick 30000)
      ∧ (t.wires.get p).commands = (s.wires.get p).commands ++ [.identAsk]
      ∧ .identAsk ∈ (t.ctls.get p).waits
      ∧ Only (these (.commands p :: heard p)) s t)
  ∧
  (∀ (p : PortId) (s : State), s.loader.starting = false → s.cond p = .resetting →
    ∃ t, exec (.announce p) s = .next (finish s t)
      ∧ t.cond p = .identifying ∧ (t.ctls.get p).cause = .announce
      ∧ (t.ctls.get p).silence = some (after s.tick 30000)
      ∧ .portClear ∉ (t.ctls.get p).waits ∧ .identAsk ∈ (t.ctls.get p).waits
      ∧ (t.wires.get p).commands = (s.wires.get p).commands ++ [.identAsk]
      ∧ Queued .staff (portTold s p .identifying .announce none (s.ctls.get p).identity none) t
      ∧ (t.ctls.get p).check = brokenCheck s p
      ∧ Only (theseTold ([.condition p, .check p, .commands p] ++ heard p) (· = .staff)) s t)
  ∧
  (∀ (p : PortId) (s : State), s.loader.starting = false →
    (s.cond p = .serving ∨ s.cond p = .stalled ∨ s.cond p = .checking) →
    ∃ t, exec (.announce p) s = .next (finish s t)
      ∧ t.cond p = .identifying ∧ (t.ctls.get p).cause = .adapterBack
      ∧ (t.ctls.get p).fault = (s.ctls.get p).fault ∧ (t.ctls.get p).identity = (s.ctls.get p).identity
      ∧ (t.ctls.get p).silence = some (after s.tick 30000)
      ∧ (t.ctls.get p).waits = [.identAsk]
      ∧ (t.ctls.get p).response = some (after s.tick ((s.configs.get p).responseMs * 10))
      ∧ (t.ctls.get p).check = brokenCheck s p
      ∧ (t.wires.get p).commands.getLast? = some .identAsk
      ∧ t.printers.get p = ⟨(s.printers.get p).queue, none, gapAfterJob s p⟩
      ∧ (t.scanners.get p).scan = none
      ∧ (s.cond p = .serving → (t.panels.get p).contacts = [])
      ∧ (t.power.get p).moving = false
      ∧ (t.power.get p).reached = (if (s.power.get p).moving then none else (s.power.get p).reached)
      ∧ (∀ j, (s.printers.get p).inflight = some j → HasSlack (.kiosk j.kiosk) s →
          (s.scanners.get p).scan = none →
          Queued (.kiosk j.kiosk) (stoppedJob p
            (if j.abortSent then j else { j with abortCause := some (.failed .deviceSilent) })
            .deviceSilent) t)
      ∧ (∀ x, (s.scanners.get p).scan = some x → x.resultGiven = false → HasSlack x.requester s →
          Queued x.requester (scanCut p x .deviceSilent) t)
      ∧ Only (theseTold ([.claims p, .takeover p, .printer p, .scanner p, .stream p, .condition p,
          .check p, .level p, .commands p] ++ heard p) fun _ => True) s t)
  ∧
  (∀ (p : PortId) (b : IdentBody) (s : State), s.loader.starting = false → s.cond p = .identifying →
    s.cls p ≠ .unused → classOf b.cls = some (s.cls p) →
    ∃ t, exec (.ident p b) s = .next (finish s t)
      ∧ t.cond p = .serving ∧ (t.ctls.get p).cause = .identified ∧ (t.ctls.get p).fault = none
      ∧ (t.ctls.get p).identity = some
          { model := b.model, duplex := b.capabilities.getLsbD 0, colour := b.capabilities.getLsbD 1
            trays := [0, 1, 2, 3].filter fun i => b.capabilities.getLsbD (2 + i) }
      ∧ (t.power.get p).reached = some ((levelOf b.level).getD .off)
      ∧ (t.power.get p).moving = (s.power.get p).moving
      ∧ (t.ctls.get p).silence = some (after s.tick 30000) ∧ .identAsk ∉ (t.ctls.get p).waits
      ∧ ((s.power.get p).reached = some .ready → levelOf b.level ≠ some .ready →
          (t.panels.get p).contacts = [])
      ∧ (HasSlack .staff s → Queued .staff (portTold s p .serving .identified none (t.ctls.get p).identity
          none) t)
      ∧ (t.ctls.get p).check = brokenCheck s p
      ∧ Only (theseTold ([.condition p, .check p, .level p, .printer p, .stream p, .commands p] ++ heard p)
          fun _ => True) s t)
  ∧
  (∀ (p : PortId) (b : IdentBody) (s : State), s.loader.starting = false → s.cond p = .identifying →
    (s.cls p = .unused ∨ classOf b.cls ≠ some (s.cls p)) → ListOrdered (s.claims.get p) →
    ∃ t, exec (.ident p b) s = .next (finish s t)
      ∧ t.cond p = .absent ∧ (t.ctls.get p).cause = .classMismatch
      ∧ (t.ctls.get p).identity = none ∧ (t.ctls.get p).mismatch = true
      ∧ (t.ctls.get p).waits = [] ∧ (t.ctls.get p).response = none
      ∧ (t.ctls.get p).silence = some (after s.tick 30000)
      ∧ (t.claims.get p) = [] ∧ (t.printers.get p).queue = [] ∧ (t.printers.get p).inflight = none
      ∧ (t.scanners.get p) = ⟨none, false⟩
      ∧ (∀ x, (s.scanners.get p).scan = some x → x.abortSent = false → x.resultGiven = false →
          HasSlack x.requester s → s.cls p = .scanner → (s.printers.get p).queue = [] →
          Queued x.requester (scanCut p x
            (if (s.holder p).map LinkId.kiosk = some x.requester then .grantEnded else .deviceLost)) t)
      ∧ ((∀ k, s.holder p = some k → ownScan s p k = false) → (t.wires.get p).commands = [])
      ∧ (t.power.get p).reached = none ∧ (t.power.get p).moving = false
      ∧ Only (theseTold ([.claims p, .takeover p, .printer p, .scanner p, .stream p, .condition p,
          .check p, .level p, .commands p] ++ heard p) fun _ => True) s t)
  ∧
  (∀ (p : PortId) (b : IdentBody) (s : State), Attends p s → s.cond p ≠ .identifying →
    ∃ t, exec (.ident p b) s = .next (finish s t)
      ∧ (t.ctls.get p).silence = some (after s.tick 30000)
      ∧ Only (these (heard p)) s t)
  ∧
  ∀ (p : PortId) (b : IdentBody) (i : Instr) (s : State), i ∈ [Instr.announce p, .ident p b] →
    s.loader.starting = false → s.cond p = .unresponsive →
    ∃ t, exec i s = .next (finish s t)
      ∧ t.cond p = .identifying ∧ (t.ctls.get p).cause = .adapterBack
      ∧ (t.ctls.get p).silence = some (after s.tick 30000)
      ∧ (t.ctls.get p).fault = (s.ctls.get p).fault ∧ (t.ctls.get p).identity = (s.ctls.get p).identity
      ∧ (t.wires.get p).commands = (s.wires.get p).commands ++ [.identAsk]
      ∧ .identAsk ∈ (t.ctls.get p).waits
      ∧ (t.ctls.get p).check = brokenCheck s p
      ∧ Only (theseTold ([.condition p, .check p, .commands p] ++ heard p) (· = .staff)) s t

/-- Every adapter frame taken outside ABSENT reloads the silence timer and a running response timer, and
brings an UNRESPONSIVE port back (08_device_ports_and_adapters.md, Adapter frames,
08_device_ports_and_adapters.md, Bringing an adapter in, 08_device_ports_and_adapters.md, The response
timer, 12_frame_and_record_layouts.md, Body length, flags and optional fields). Outside ABSENT and
UNRESPONSIVE each frame about an adapter's work (those of jobs, scans, touches, the document sensor, checks,
power and streams, FAULT and CLEARED) completes with the silence timer 30,000 ticks from now and a running
response timer set to the longest of the waits then left; it stays so while the frame's effect begins no
wait, and is absent when no wait holds. ALIVE, a wrong length and an unknown kind do that and no more, and
so do POWER_DONE, TEST_RESULT and IDENT with nothing to end once they have ended their own wait. In
UNRESPONSIVE each makes the port IDENTIFYING with cause ADAPTER_BACK and IDENT_ASK is sent, and a work frame
is then taken as on that IDENTIFYING port (but for the waits and the response timer in a state, which no run
reaches, where an UNRESPONSIVE port has waits). In ABSENT a work frame and IDENT do what ALIVE does: on a
port in use without mismatch flag PORT_CLEAR is sent and the clear-spacing timer set to 30,000 ticks from
now unless it runs; with the flag the silence timer alone is set afresh; on an UNUSED port nothing changes.
During the start-up read the state stays as it was. ANNOUNCE and IDENT outside ABSENT stand in
AdaptersAreBroughtIn. That the waits a frame answers end before the timers are set, and the timers are set
before its other effect, is the model's reading (log 9). -/
def Obligations.EveryFrameIsASignOfLife : Prop :=
  (∀ (p : PortId) (kind : Byte) (i : Instr) (s : State),
    i ∈ [Instr.alive p, .adapterFrameWrongLength p kind, .adapterUnknownKind p kind] → Attends p s →
    ∃ t, exec i s = .next (finish s t)
      ∧ (t.ctls.get p).silence = some (after s.tick 30000)
      ∧ (t.ctls.get p).waits = (s.ctls.get p).waits
      ∧ (t.ctls.get p).clearSpacing = (s.ctls.get p).clearSpacing
      ∧ ((s.ctls.get p).response = none → (t.ctls.get p).response = none)
      ∧ ((s.ctls.get p).response ≠ none → (s.ctls.get p).waits ≠ [] →
          (t.ctls.get p).response = some (after s.tick (longestOf s p (s.ctls.get p).waits)))
      ∧ Only (these (heard p)) s t)
  ∧
  (∀ (p : PortId) (i : Instr) (w : Wait) (s : State),
    ((∃ level, i = .powerDone p level) ∧ w = .powerSet ∧ (s.power.get p).moving = false)
      ∨ ((∃ flags, i = .testResult p flags) ∧ w = .testStart ∧ (s.ctls.get p).check.status ≠ .running)
      ∨ ((∃ b, i = .ident p b) ∧ w = .identAsk ∧ s.cond p ≠ .identifying) → Attends p s →
    ∃ t, exec i s = .next (finish s t)
      ∧ (t.ctls.get p).silence = some (after s.tick 30000)
      ∧ (t.ctls.get p).waits = (s.ctls.get p).waits.filter (· ≠ w)
      ∧ ((t.ctls.get p).waits = [] → (t.ctls.get p).response = none)
      ∧ ((s.ctls.get p).response ≠ none → (t.ctls.get p).waits ≠ [] →
          (t.ctls.get p).response = some (after s.tick (longestOf s p (t.ctls.get p).waits)))
      ∧ Only (these (heard p)) s t)
  ∧
  (∀ (p : PortId) (kind : Byte) (i : Instr) (s : State),
    i ∈ [Instr.alive p, .adapterFrameWrongLength p kind, .adapterUnknownKind p kind] →
    s.loader.starting = false → s.cond p = .unresponsive →
    ∃ t, exec i s = .next (finish s t)
      ∧ t.cond p = .identifying ∧ (t.ctls.get p).cause = .adapterBack
      ∧ (t.ctls.get p).silence = some (after s.tick 30000)
      ∧ (t.ctls.get p).fault = (s.ctls.get p).fault ∧ (t.ctls.get p).identity = (s.ctls.get p).identity
      ∧ (t.wires.get p).commands = (s.wires.get p).commands ++ [.identAsk]
      ∧ .identAsk ∈ (t.ctls.get p).waits
      ∧ Queued .staff (portTold s p .identifying .adapterBack none (s.ctls.get p).identity none) t
      ∧ (t.ctls.get p).check = brokenCheck s p
      ∧ Only (theseTold ([.condition p, .check p, .commands p] ++ heard p) (· = .staff)) s t)
  ∧
  (∀ (p : PortId) (kind : Byte) (b : IdentBody) (i : Instr) (s : State),
    i ∈ [Instr.alive p, .adapterFrameWrongLength p kind, .adapterUnknownKind p kind, .ident p b] →
    s.loader.starting = false → s.cond p = .absent → s.cls p ≠ .unused → (s.ctls.get p).mismatch = false →
    (s.ctls.get p).clearSpacing = none →
    ∃ t, exec i s = .next (finish s t)
      ∧ (t.ctls.get p).clearSpacing = some (after s.tick 30000)
      ∧ (t.ctls.get p).silence = (s.ctls.get p).silence
      ∧ (t.wires.get p).commands = (s.wires.get p).commands ++ [.portClear]
      ∧ Only (these [.timers p, .commands p, .deviceReceiver p]) s t)
  ∧
  (∀ (p : PortId) (kind : Byte) (b : IdentBody) (i : Instr) (s : State),
    i ∈ [Instr.alive p, .adapterFrameWrongLength p kind, .adapterUnknownKind p kind, .ident p b, .announce p] →
    s.loader.starting = false → s.cond p = .absent →
    (s.cls p = .unused ∨ (s.ctls.get p).mismatch = true
      ∨ (i ≠ .announce p ∧ (s.ctls.get p).clearSpacing ≠ none)) →
    ∃ t, exec i s = .next (finish s t)
      ∧ (t.ctls.get p).silence = (if s.cls p ≠ .unused ∧ (s.ctls.get p).mismatch = true
          then some (after s.tick 30000) else (s.ctls.get p).silence)
      ∧ (t.ctls.get p).clearSpacing = (s.ctls.get p).clearSpacing
      ∧ Only (these [.timers p, .deviceReceiver p]) s t)
  ∧
  (∀ (p : PortId) (kind : Byte) (b : IdentBody) (i : Instr) (s : State),
    i ∈ [Instr.alive p, .adapterFrameWrongLength p kind, .adapterUnknownKind p kind, .ident p b, .announce p] →
    s.loader.starting = true →
    ∃ t, exec i s = .next (finish s t)
      ∧ t = s)
  ∧
  (∀ (i : Instr) (s : State), ∀ f, workFrame s i = some f → Attends f.1 s →
    ∃ t, exec i s = .next (finish s t)
      ∧ (t.ctls.get f.1).silence = some (after s.tick 30000)
      ∧ ((t.ctls.get f.1).waits = [] → (t.ctls.get f.1).response = none)
      ∧ ((s.ctls.get f.1).response ≠ none → (t.ctls.get f.1).waits ≠ [] →
          (∀ w ∈ (t.ctls.get f.1).waits, w ∈ waitsLeft s f.1 f.2) →
          (t.ctls.get f.1).response = some (after s.tick (longestOf s f.1 (waitsLeft s f.1 f.2)))))
  ∧
  (∀ (i : Instr) (s : State), ∀ f, workFrame s i = some f → s.loader.starting = false →
    s.cond f.1 = .unresponsive →
    ∃ t, exec i s = .next (finish s t)
      ∧ t.cond f.1 = .identifying ∧ (t.ctls.get f.1).cause = .adapterBack
      ∧ (t.ctls.get f.1).silence = some (after s.tick 30000)
      ∧ .identAsk ∈ (t.ctls.get f.1).waits
      ∧ (s.wires.get f.1).commands ++ [.identAsk] <+: (t.wires.get f.1).commands
      ∧ ∃ u v, exec (.alive f.1) s = .next (finish s u) ∧ exec i u = .next (finish u v)
          ∧ ((s.ctls.get f.1).waits = [] → v = t) ∧ Only (these [.waits f.1]) v t)
  ∧
  ∀ (i : Instr) (s : State), ∀ f, workFrame s i = some f →
    (s.loader.starting = true ∨ s.cond f.1 = .absent) →
    ∃ t, exec i s = .next (finish s t)
      ∧ exec (.alive f.1) s = .next (finish s t)

/-- A reached response deadline makes a port UNRESPONSIVE, a reached silence deadline makes it ABSENT
(08_device_ports_and_adapters.md, The response timer, 08_device_ports_and_adapters.md, Adapter silence and
loss, 08_device_ports_and_adapters.md, Bringing an adapter in, 01_claims_and_grants.md, How a claim ends,
03_print_jobs.md, Jobs and the rest of the hub, 04_scanning.md, Scans and the port's condition,
09_power_levels.md, Power transitions). RESPONSE_TIMEOUT at a reached deadline in a condition other than
ABSENT and UNRESPONSIVE completes with the port UNRESPONSIVE, cause NO_RESPONSE, no wait, the fault and the
identity kept, a job in flight ended DEVICE_SILENT or as its abort cause gives, no scan left, SCAN_RESULT
ABORTED DEVICE_SILENT handed to the requester of one whose result was not given (read in a queue of at most
24 items), a running check ended ERROR, a transition in flight ended with the level UNKNOWN, and claims and
queued jobs kept. ADAPTER_SILENCE at a reached deadline outside ABSENT leaves the port ABSENT, cause
SILENCE: no wait, identity, fault or silence timer, no claim, no job, no document, the level UNKNOWN, a
running check ended ERROR and no scan, SCAN_RESULT ABORTED DEVICE_LOST handed to the requester of one not
yet aborted, but GRANT_ENDED where that is the holder, whose grant the model ends first (read, for a SCANNER
port without queued jobs, in a queue of at most 24 items); in ABSENT it clears the mismatch flag and the
timer. CLEAR_SPACING_EXPIRY at a reached deadline makes its timer absent. Without a reached deadline nothing
changes (log 3). The order of what follows, the GRANT_ENDED with it, and a SCAN_ABORT while a scan is
ending, are the model's reading (logs 8, 37). -/
def Obligations.AdapterTimersExpire : Prop :=
  (∀ (p : PortId) (s : State), due s.tick (s.ctls.get p).response = true → s.cond p ≠ .absent →
    s.cond p ≠ .unresponsive →
    ∃ t, exec (.responseTimeout p) s = .next (finish s t)
      ∧ t.cond p = .unresponsive ∧ (t.ctls.get p).cause = .noResponse
      ∧ (t.ctls.get p).fault = (s.ctls.get p).fault ∧ (t.ctls.get p).identity = (s.ctls.get p).identity
      ∧ (t.ctls.get p).waits = [] ∧ (t.ctls.get p).response = none
      ∧ (t.ctls.get p).check = brokenCheck s p
      ∧ t.printers.get p = ⟨(s.printers.get p).queue, none, gapAfterJob s p⟩
      ∧ (t.scanners.get p).scan = none
      ∧ (t.scanners.get p).document = (s.scanners.get p).document
      ∧ (s.cond p = .serving → (t.panels.get p).contacts = [])
      ∧ (t.power.get p).moving = false
      ∧ (t.power.get p).reached = (if (s.power.get p).moving then none else (s.power.get p).reached)
      ∧ ((s.scanners.get p).scan = none → s.cond p ≠ .checking →
          ((s.takes.get p).state = .free ∨ (s.takes.get p).state = .staffHold) →
          t.claims.get p = s.claims.get p ∧ t.takes.get p = s.takes.get p)
      ∧ (∀ j, (s.printers.get p).inflight = some j → HasSlack (.kiosk j.kiosk) s →
          (s.scanners.get p).scan = none →
          Queued (.kiosk j.kiosk) (stoppedJob p
            (if j.abortSent then j else { j with abortCause := some (.failed .deviceSilent) })
            .deviceSilent) t)
      ∧ (∀ x, (s.scanners.get p).scan = some x → x.resultGiven = false → HasSlack x.requester s →
          Queued x.requester (scanCut p x .deviceSilent) t)
      ∧ (HasSlack .staff s → (s.scanners.get p).scan = none → Queued .staff
          (portTold s p .unresponsive .noResponse none (s.ctls.get p).identity none) t)
      ∧ Only (theseTold [.claims p, .takeover p, .printer p, .scanner p, .stream p, .condition p,
          .waits p, .check p, .level p, .commands p] fun _ => True) s t)
  ∧
  (∀ (p : PortId) (s : State), due s.tick (s.ctls.get p).silence = true → s.cond p ≠ .absent →
    ListOrdered (s.claims.get p) →
    ∃ t, exec (.adapterSilence p) s = .next (finish s t)
      ∧ t.cond p = .absent ∧ (t.ctls.get p).cause = .silence
      ∧ (t.ctls.get p).fault = none ∧ (t.ctls.get p).identity = none
      ∧ (t.ctls.get p).waits = [] ∧ (t.ctls.get p).response = none
      ∧ ((s.ctls.get p).mismatch = false → (t.ctls.get p).silence = none)
      ∧ (t.ctls.get p).check = brokenCheck s p
      ∧ t.claims.get p = []
      ∧ t.printers.get p = ⟨[], none, gapAfterJob s p⟩
      ∧ t.scanners.get p = ⟨none, false⟩
      ∧ (∀ x, (s.scanners.get p).scan = some x → x.abortSent = false → x.resultGiven = false →
          HasSlack x.requester s → s.cls p = .scanner → (s.printers.get p).queue = [] →
          Queued x.requester (scanCut p x
            (if (s.holder p).map LinkId.kiosk = some x.requester then .grantEnded else .deviceLost)) t)
      ∧ (s.cond p = .serving → (t.panels.get p).contacts = [])
      ∧ (t.power.get p).moving = false ∧ (t.power.get p).reached = none
      ∧ ((∀ k, s.holder p = some k → ownScan s p k = false) → (t.wires.get p).commands = [])
      ∧ Only (theseTold [.claims p, .takeover p, .printer p, .scanner p, .stream p, .condition p,
          .waits p, .timers p, .check p, .level p, .commands p] fun _ => True) s t)
  ∧
  (∀ (p : PortId) (s : State), due s.tick (s.ctls.get p).silence = true → s.cond p = .absent →
    ∃ t, exec (.adapterSilence p) s = .next (finish s t)
      ∧ (t.ctls.get p).mismatch = false ∧ (t.ctls.get p).silence = none
      ∧ (t.ctls.get p).identity = (s.ctls.get p).identity ∧ t.cond p = .absent
      ∧ Only (these [.condition p, .timers p]) s t)
  ∧
  (∀ (p : PortId) (s : State), due s.tick (s.ctls.get p).clearSpacing = true →
    ∃ t, exec (.clearSpacingExpiry p) s = .next (finish s t)
      ∧ (t.ctls.get p).clearSpacing = none ∧ (t.ctls.get p).silence = (s.ctls.get p).silence
      ∧ Only (these [.timers p]) s t)
  ∧
  (∀ (p : PortId) (s : State), (due s.tick (s.ctls.get p).response = false ∨ s.cond p = .absent
      ∨ s.cond p = .unresponsive) →
    ∃ t, exec (.responseTimeout p) s = .next (finish s t)
      ∧ t = s)
  ∧
  (∀ (p : PortId) (s : State), due s.tick (s.ctls.get p).silence = false →
    ∃ t, exec (.adapterSilence p) s = .next (finish s t)
      ∧ t = s)
  ∧
  ∀ (p : PortId) (s : State), due s.tick (s.ctls.get p).clearSpacing = false →
    ∃ t, exec (.clearSpacingExpiry p) s = .next (finish s t)
      ∧ t = s

/-- VOTE stores or removes the kiosk's wish, and LIMIT replaces floor and ceiling or is refused unchanged
(09_power_levels.md, Kiosk votes, 09_power_levels.md, Floor and ceiling, 01_claims_and_grants.md, Idle
expiry). For a listening, admitted kiosk that reaches a port in use, in every hall state and port condition,
VOTE completes with OK, the vote, the target and the reached level: the kiosk's vote is the level given, one
above 3 being READY, or is removed, no other vote changes, and a holder's own VOTE re-arms its deadline. For
a listening staff link and a port number 0 to 11, LIMIT with both levels at most 3 and the floor not above
the ceiling completes with OK, both levels, the target and the reached level; any other LIMIT for such a
port is refused BAD_VALUE, and one for another port NO_SUCH_PORT; nothing else changes. -/
def Obligations.VotesAndLimitsAreStored : Prop :=
  (∀ (k : KioskId) (p : PortId) (b : VoteBody) (s : State), portOf b.port = some p → Listens (.kiosk k) s →
    MayUse k p anyClass s →
    ∃ t, exec (.vote k (.fields b)) s = .next (finish s t)
      ∧ (t.power.get p).votes.get k = (b.level.map fun l =>
          if l.toNat = 0 then .off else if l.toNat = 1 then .sleep else if l.toNat = 2 then .standby
          else .ready)
      ∧ (∀ j, j ≠ k → (t.power.get p).votes.get j = (s.power.get p).votes.get j)
      ∧ t.claims.get p = afterActivity s p (.kiosk k)
      ∧ Replies (.kiosk k) Kind.vote .ok
          (.vote p ((t.power.get p).votes.get k) (t.targetOf p) (s.power.get p).reached) t
      ∧ Only (these ([.votes p, .claims p] ++ asked (.kiosk k))) s t)
  ∧
  (∀ (p : PortId) (b : LimitBody) (s : State), portOf b.port = some p → Listens .staff s →
    ∀ f, levelOf b.floor = some f → ∀ c, levelOf b.ceiling = some c → f.value ≤ c.value →
    ∃ t, exec (.limit (.fields b)) s = .next (finish s t)
      ∧ (t.power.get p).floor = f ∧ (t.power.get p).ceiling = c
      ∧ Replies .staff Kind.limit .ok (.limits f c (t.targetOf p) (s.power.get p).reached) t
      ∧ Only (these (.limits p :: asked .staff)) s t)
  ∧
  (∀ (p : PortId) (b : LimitBody) (s : State), portOf b.port = some p → Listens .staff s →
    (3 < b.floor.toNat ∨ 3 < b.ceiling.toNat ∨ b.ceiling.toNat < b.floor.toNat) →
    ∃ t, exec (.limit (.fields b)) s = .next (finish s t)
      ∧ Replies .staff Kind.limit .badValue .bare t
      ∧ Only (these (asked .staff)) s t)
  ∧
  ∀ (b : LimitBody) (s : State), 11 < b.port.toNat → Listens .staff s →
    ∃ t, exec (.limit (.fields b)) s = .next (finish s t)
      ∧ Replies .staff Kind.limit .noSuchPort .bare t
      ∧ Only (these (asked .staff)) s t

/-- POWER_DONE ends the transition in flight at the level reported, and a wake from OFF identifies the
device afresh (09_power_levels.md, Power transitions, 08_device_ports_and_adapters.md, Faults and clearing,
05_touch_panels_coordinates_and_contacts.md, Cutting contacts). From an attended adapter, POWER_DONE while a
transition is in flight completes with the transition ended, its wait ended, and the reached level as
reported, one above 3 as OFF. When the level was OFF and is above OFF now, a SERVING or STALLED port becomes
IDENTIFYING with cause WAKE, and IDENT_ASK is sent. Otherwise the condition stays; a level that becomes
READY lets a job be selected, and one that falls from READY clears the contacts. Without a transition in
flight POWER_DONE only reloads timers and ends its wait. The order of what follows is the model's reading
(log 8). -/
def Obligations.PowerDoneEndsTheTransition : Prop :=
  (∀ (p : PortId) (level : Byte) (s : State), Attends p s → (s.power.get p).moving = true →
    ¬ ((s.power.get p).reached = some .off ∧ (level = 1 ∨ level = 2 ∨ level = 3)
        ∧ (s.cond p = .serving ∨ s.cond p = .stalled)) →
    ∃ t, exec (.powerDone p level) s = .next (finish s t)
      ∧ (t.power.get p).moving = false ∧ (t.power.get p).reached = some ((levelOf level).getD .off)
      ∧ .powerSet ∉ (t.ctls.get p).waits
      ∧ t.cond p = s.cond p ∧ (t.ctls.get p).cause = (s.ctls.get p).cause
      ∧ ((s.power.get p).reached = some .ready → level ≠ 3 → (t.panels.get p).contacts = [])
      ∧ ((s.power.get p).reached = some .ready → level = 3 → t.panels.get p = s.panels.get p)
      ∧ (level ≠ 3 → t.printers.get p = s.printers.get p)
      ∧ Only (theseTold ([.level p, .printer p, .stream p, .commands p] ++ heard p) fun _ => True) s t)
  ∧
  (∀ (p : PortId) (level : Byte) (s : State), Attends p s → (s.power.get p).moving = true →
    (s.power.get p).reached = some .off → (level = 1 ∨ level = 2 ∨ level = 3) →
    (s.cond p = .serving ∨ s.cond p = .stalled) →
    ∃ t, exec (.powerDone p level) s = .next (finish s t)
      ∧ (t.power.get p).moving = false ∧ (t.power.get p).reached = some ((levelOf level).getD .off)
      ∧ t.cond p = .identifying ∧ (t.ctls.get p).cause = .wake
      ∧ (t.ctls.get p).fault = (s.ctls.get p).fault ∧ (t.ctls.get p).identity = (s.ctls.get p).identity
      ∧ .powerSet ∉ (t.ctls.get p).waits ∧ .identAsk ∈ (t.ctls.get p).waits
      ∧ (t.wires.get p).commands = (s.wires.get p).commands ++ [.identAsk]
      ∧ (s.cond p = .serving → (t.panels.get p).contacts = [])
      ∧ Only (theseTold ([.level p, .condition p, .check p, .commands p] ++ heard p) fun _ => True) s t)
  ∧
  ∀ (p : PortId) (level : Byte) (s : State), Attends p s → (s.power.get p).moving = false →
    ∃ t, exec (.powerDone p level) s = .next (finish s t)
      ∧ .powerSet ∉ (t.ctls.get p).waits
      ∧ Only (these (heard p)) s t

/-- After every command each port's target follows its demand, and no transition that may start is left
waiting (09_power_levels.md, Demand and target, 09_power_levels.md, Power transitions). Whatever the command
and the state, the state after it has for each port as target READY when a job or a scan is in flight, a
check runs or staff holds the port, and else the highest of the floor, the standing demand and, unless the
hall is QUIET, the votes, lowered to the ceiling; the standing demand is READY with a holder not suspended
or a queued job, else STANDBY with a waiter, else OFF. And a port that is SERVING, STALLED or CHECKING with
a known level other than its target has a transition in flight, but for a reset's own first state, in which
every level is UNKNOWN. -/
def Obligations.PowerFollowsDemand : Prop :=
  ∀ (c : Instr) (s : State), ∃ t, exec c s = .next t ∧ ∀ p : PortId,
    ((t.power.get p).target.value =
      (if (t.printers.get p).inflight ≠ none ∨ (t.scanners.get p).scan ≠ none
          ∨ (t.ctls.get p).check.status = .running ∨ (t.takes.get p).state = .staffHold then 3
       else min (t.power.get p).ceiling.value (max (t.power.get p).floor.value (max
        (if (∃ d ∈ t.claims.get p, holderOf (t.claims.get p) = some d ∧ d.suspended = false)
            ∨ (t.printers.get p).queue ≠ [] then 3
         else if waitersOf (t.claims.get p) ≠ [] then 2 else 0)
        (if t.hall = .quiet then 0 else
          (allKiosks.map fun k => (((t.power.get p).votes.get k).map Level.value).getD 0).foldl max 0)))))
      ∧ ((t.cond p = .serving ∨ t.cond p = .stalled ∨ t.cond p = .checking) →
          (t.power.get p).reached ≠ none → (t.power.get p).reached ≠ some (t.power.get p).target →
          (t.power.get p).moving = true)

/-- SAVE writes the settings as they stand, and the end of writing is told to staff as ok or failed
(11_time_base_settings_memory_and_start_up.md, Saving, 11_time_base_settings_memory_and_start_up.md, The
settings image, 11_time_base_settings_memory_and_start_up.md, Start-up). For a listening staff link SAVE
completes with OK in save state IDLE, which becomes SAVING with the image of the settings as they stand
being written, and with BUSY otherwise; no setting changes. With the settings in their ranges that image is
valid, and reads back as these settings. WRITING_ENDS while SAVING completes with the state IDLE,
SAVE_RESULT handed to staff and the result kept: when every write was acknowledged the memory holds the new
image over its old contents, and else the old contents, the new image over them, or a byte by byte mixture
that fails its check word. At any other time it changes nothing. HUB_IDENT completes with the vendor code
0x0A41, part 2412, revision 1, format 1, the tick, the start-up outcome, the save state and the last SAVE's
result, and changes nothing. What a write cut short leaves, and an end of writing that is not due, are the
model's choice (logs 3, 11, 12), and so are the bytes of the image that the spec does not give (log 46). -/
def Obligations.SaveWritesTheSettings : Prop :=
  (∀ (s : State), Listens .staff s → s.loader.save = .idle →
    ∃ t, exec (.save (.fields ())) s = .next (finish s t)
      ∧ t.loader = { s.loader with save := .saving, writing := some (imageBytes s.settings) }
      ∧ (s.settings.inRange = true →
          ImageValid (imageBytes s.settings) ∧ Holds (settingsIn (imageBytes s.settings)) s)
      ∧ Replies .staff Kind.save .ok .bare t
      ∧ Only (these (.loader :: asked .staff)) s t)
  ∧
  (∀ (s : State), Listens .staff s → s.loader.save ≠ .idle →
    ∃ t, exec (.save (.fields ())) s = .next (finish s t)
      ∧ Replies .staff Kind.save .busy .bare t
      ∧ Only (these (asked .staff)) s t)
  ∧
  (∀ (ok : Bool) (s : State), s.loader.save = .saving → ∀ x, s.loader.writing = some x →
    ∃ t, exec (.writingEnds ok) s = .next (finish s t)
      ∧ t.loader = { s.loader with
          save := .idle, writing := none, lastSave := some ok, memory := t.loader.memory }
      ∧ (ok = true → t.loader.memory = x ++ s.loader.memory.drop x.length ∧ t.draws = s.draws)
      ∧ (ok = false → CanRemain s.loader.memory x t.loader.memory)
      ∧ Queued .staff (.saveResult ok) t
      ∧ Only (theseTold [.loader, .draws] (· = .staff)) s t)
  ∧
  (∀ (ok : Bool) (s : State), s.loader.save ≠ .saving →
    ∃ t, exec (.writingEnds ok) s = .next (finish s t)
      ∧ t = s)
  ∧
  ∀ (s : State), Listens .staff s →
    ∃ t, exec (.hubIdent (.fields ())) s = .next (finish s t)
      ∧ Replies .staff Kind.hubIdent .ok
          (.identity 0x0A41 2412 1 1 s.tick s.loader.outcome s.loader.save s.loader.lastSave) t
      ∧ Only (these (asked .staff)) s t

/-- LOAD reads the image in a QUIET hall, and the end of the read applies a valid image whole or leaves
every setting (11_time_base_settings_memory_and_start_up.md, Loading, 08_device_ports_and_adapters.md, Port
configuration, 02_staff_takeover_and_hall_closing.md, The takeover state of a port,
06_touch_routing_and_staff_sequences.md, The sequence trigger, 05_touch_panels_coordinates_and_contacts.md,
Cue tagging). For a listening staff link LOAD completes, without a reply yet, with the save state LOADING in
a QUIET hall and save state IDLE, and is refused BUSY otherwise. LOAD_READ_ENDS while LOADING completes with
the state IDLE. An image with format number 1, its length 1362 and the check word of the bytes behind its
header is valid and is applied: every setting takes its value, the triggers are set, the pending cues go,
the outcome is LOADED, HUB_STATE goes to staff, and the reply still awaited is OK APPLIED; a port whose
class changes has takeover state NONE, no votes, no scan and no identity, and is ABSENT, where it was or for
UNUSED, or IDENTIFYING. A blank or failed image, or no answer, leaves every setting, and the reply is
BAD_VALUE with the outcome. The image read is what the memory holds then. While not LOADING it changes
nothing, by the model's choice (log 3); so are the read that is awaited (log 21), the start of the read, the
order of what follows, the memory's answer and the image's layout (logs 8, 12, 18, 27, 38, 46). -/
def Obligations.LoadAppliesAValidImage : Prop :=
  (∀ (s : State), Listens .staff s → s.hall = .quiet → s.loader.save = .idle →
    ∃ t, exec (.load (.fields ())) s = .next (finish s t)
      ∧ t.loader = { s.loader with save := .loading, awaiting := true }
      ∧ Only (these [.loader, .unit .staff]) s t)
  ∧
  (∀ (s : State), Listens .staff s → (s.hall ≠ .quiet ∨ s.loader.save ≠ .idle) →
    ∃ t, exec (.load (.fields ())) s = .next (finish s t)
      ∧ Replies .staff Kind.load .busy .bare t
      ∧ Only (these (asked .staff)) s t)
  ∧
  (∀ (a : MemoryAnswer) (s : State), s.loader.save = .loading →
    ∀ i, answered s a = some i → ImageValid i →
    ∃ t, exec (.loadReadEnds a) s = .next (finish s t)
      ∧ Holds (settingsIn i) t
      ∧ (∀ p, (t.panels.get p).seqState = triggerSet t p ∧ (t.panels.get p).cue = .absent)
      ∧ t.loader = { s.loader with save := .idle, awaiting := false, outcome := some .loaded, memory := i }
      ∧ (s.loader.awaiting = true → Replies .staff Kind.load .ok (.loadOutcome .applied) t)
      ∧ (s.loader.awaiting = false → t.staff.reply = s.staff.reply)
      ∧ Queued .staff (.hubState (some .loaded) .idle 1) t
      ∧ (∀ p, t.cls p ≠ s.cls p → (t.takes.get p) = ⟨.free, none⟩ ∧ (t.ctls.get p).identity = none
          ∧ (∀ k, (t.power.get p).votes.get k = none)
          ∧ (s.cond p ≠ .absent → (t.scanners.get p).scan = none)
          ∧ (t.cond p = (if s.cond p = .absent ∨ t.cls p = .unused then .absent else .identifying)))
      ∧ (∀ p, t.cls p = s.cls p → t.cond p = s.cond p ∧ t.ctls.get p = s.ctls.get p
          ∨ (s.scanners.get p).scan ≠ none)
      ∧ Only (fun x => (∀ l, x ≠ .unit l ∧ x ≠ .overrun l ∧ x ≠ .transmitter l)
          ∧ (∀ k, x ≠ .slot (.kiosk k))
          ∧ (∀ p, x ≠ .deviceTransmitter p ∧ x ≠ .deviceReceiver p)
          ∧ x ∉ [.time, .cueLine, .hall, .nextJob, .draws, .pending]) s t)
  ∧
  (∀ (a : MemoryAnswer) (s : State), s.loader.save = .loading →
    (∀ i, answered s a = some i → ¬ ImageValid i) →
    ∃ t, exec (.loadReadEnds a) s = .next (finish s t)
      ∧ t.loader = { s.loader with
          save := .idle, awaiting := false, memory := (answered s a).getD s.loader.memory }
      ∧ (s.loader.awaiting = true → Replies .staff Kind.load .badValue
          (.loadOutcome (match answered s a with
            | none => .noMemory
            | some i => if memoryAt i 0 = 1 then .checkFailed else .blank)) t)
      ∧ (s.loader.awaiting = false → t.staff.reply = s.staff.reply)
      ∧ Only (these [.loader, .slot .staff]) s t)
  ∧
  ∀ (a : MemoryAnswer) (s : State), s.loader.save ≠ .loading →
    ∃ t, exec (.loadReadEnds a) s = .next (finish s t)
      ∧ t = s

/-- Every reset leaves the same empty hub, and the start-up read ends with the image's settings or the
factory defaults (11_time_base_settings_memory_and_start_up.md, Start-up,
11_time_base_settings_memory_and_start_up.md, Saving, 10_kiosk_and_staff_links.md, The common checks,
06_touch_routing_and_staff_sequences.md, The sequence trigger). POWER_ON and RESET_LINE complete in every
state with the pools, queues, lists, tables, records, streams and slots empty, every link DOWN, every port
ABSENT, the hall OPEN, every takeover state NONE, no timer running, the tick 0, the next job id 1, every
level UNKNOWN, no check record and the start-up read begun; the memory keeps what it held, or after a write
cut short what such a write can leave. The cue line's level, the count of free values drawn and the commands
that wait are the model's choice to keep (log 31). HUB_RESET on a listening staff link does the same.
STARTUP_READ_ENDS during the read completes with the settings of a valid image and outcome LOADED, or the
factory defaults and DEFAULTED with the cause, the triggers set, the cue line sampled and nothing else
changed; at another time it changes nothing, by the model's choice (log 3). The model's choice are also the
values at reset that the spec does not give (log 23), what a write cut short leaves, the memory's answer,
the settings during the read, the cue line before its end and the image's layout (logs 11 to 13, 39, 46). -/
def Obligations.ResetsStartTheHubAfresh : Prop :=
  (∀ (i : Instr) (s : State), i ∈ [Instr.powerOn, .resetLine] →
    ∃ t, exec i s = .next t
      ∧ t = { State.reset with
          cueLevel := s.cueLevel, pending := s.pending, draws := t.draws
          loader := { Loader.reset with memory := t.loader.memory } }
      ∧ t.tick = 0 ∧ t.nextJob = 1 ∧ t.hall = .openHall ∧ t.loader.starting = true ∧ t.loader.save = .idle
      ∧ t.loader.outcome = none ∧ t.loader.lastSave = none ∧ t.loader.writing = none
      ∧ (∀ p, t.claims.get p = [] ∧ t.takes.get p = ⟨.free, none⟩ ∧ t.printers.get p = ⟨[], none, none⟩
          ∧ t.scanners.get p = ⟨none, false⟩ ∧ (t.panels.get p).contacts = []
          ∧ (t.panels.get p).cue = .absent ∧ t.streams.get p = none ∧ t.cond p = .absent
          ∧ (t.ctls.get p).waits = [] ∧ (t.ctls.get p).response = none ∧ (t.ctls.get p).silence = none
          ∧ (t.ctls.get p).clearSpacing = none ∧ (t.ctls.get p).identity = none
          ∧ (t.ctls.get p).mismatch = false ∧ (t.ctls.get p).fault = none
          ∧ (t.ctls.get p).check.status = .none
          ∧ (t.power.get p).reached = none ∧ (t.power.get p).moving = false
          ∧ (∀ k, (t.power.get p).votes.get k = none) ∧ t.wires.get p = ⟨[], none, []⟩)
      ∧ (∀ l, (t.link l).up = false ∧ (t.link l).silence = none ∧ (t.link l).outstanding = false
          ∧ (t.link l).overrun = false ∧ (t.link l).reply = none ∧ (t.link l).queue = []
          ∧ (t.link l).gap = false ∧ (t.link l).sending = none ∧ (t.link l).rx = [])
      ∧ (s.loader.save ≠ .saving → t.loader.memory = s.loader.memory)
      ∧ (∀ x, s.loader.writing = some x → CanRemain s.loader.memory x t.loader.memory))
  ∧
  (∀ (s : State), Listens .staff s →
    ∃ t, exec (.hubReset (.fields ())) s = .next t ∧ exec .powerOn s = .next t)
  ∧
  (∀ (a : MemoryAnswer) (high : Bool) (s : State), s.loader.starting = true →
    ∃ t, exec (.startupReadEnds a high) s = .next (finish s t)
      ∧ (∀ i, answered s a = some i → ImageValid i →
          Holds (settingsIn i) t ∧ t.loader.outcome = some .loaded)
      ∧ ((∀ i, answered s a = some i → ¬ ImageValid i) → Holds defaultSettings t
          ∧ t.loader.outcome = some (.defaulted (match answered s a with
              | none => .noMemory
              | some i => if memoryAt i 0 = 1 then .checkFailed else .blank)))
      ∧ t.loader.memory = (answered s a).getD s.loader.memory
      ∧ t.loader.starting = false ∧ t.loader.save = s.loader.save ∧ t.cueLevel = high
      ∧ (∀ p, (t.panels.get p).seqState = triggerSet t p ∧ (t.panels.get p).cue = .absent)
      ∧ Only (fun x => x ∈ [.loader, .cueLine, .cueEdge] ∨ (∃ k, x = .profile k)
          ∨ ∃ p, x ∈ [.config p, .limits p, .panelSettings p, .sequence p, .cue p]) s t)
  ∧
  ∀ (a : MemoryAnswer) (high : Bool) (s : State), s.loader.starting = false →
    ∃ t, exec (.startupReadEnds a high) s = .next (finish s t)
      ∧ t = s

/-- HELLO brings a DOWN link UP and restarts one that is UP, and BYE is answered before the link goes DOWN
(10_kiosk_and_staff_links.md, Link states, 02_staff_takeover_and_hall_closing.md, The takeover state of a
port, 08_device_ports_and_adapters.md, The port condition, 11_time_base_settings_memory_and_start_up.md,
Start-up, 10_kiosk_and_staff_links.md, The common checks, 10_kiosk_and_staff_links.md, One request at a time,
04_scanning.md, Aborts from the rest of the hub, 07_streams_and_kiosk_delivery.md, Closing,
02_staff_takeover_and_hall_closing.md, Quiet). After the start-up read a HELLO of the right length on a DOWN
link completes: the link is UP, its silence deadline 30,000 ticks from now, the HELLO outstanding and
answered OK, the turn NOTICES and the last port served 11. A kiosk's reply carries its profile and the hall
state, and KIOSK_STATE with cause HELLO goes to staff. The staff console's carries the hall state and the 24
link states, and into an empty queue go HALL_STATE, a TAKE_STATE per port not in NONE, a PORT_STATE per port
in use and HUB_STATE. On an UP link with nothing outstanding the kiosk first departs as at any DOWN and comes
UP again: where one of the four counts of a CLOSING hall fell in that departure, staff is handed a HALL_STATE
(read where no scan of the kiosk is in flight, or in a staff queue of at most 19 items), and the hall is
QUIET if all four are 0 then, and the reply carries the hall as the departure left it. The staff console
restarts likewise, where every scan in flight stands on a port of class SCANNER: its unit, slot, queue and
transmitter start empty, its streams close, its contacts end, staff scans STARTING or SCANNING are aborted
LINK_LOST, a LOAD's reply is given up, and the notices of coming UP follow. Of the wrong length HELLO is
refused BAD_VALUE there. With a request outstanding on the UP link a HELLO, like any request, sets overrun
pending, reloads the silence timer and changes nothing else. BYE on such a link is answered OK, the link
still UP. Of the wrong length on a DOWN link HELLO is discarded. The order of the staff notices, and of what
follows a link's end, the LOAD's reply given up, and that the falls of a departure give one HALL_STATE at its
end, are the model's reading (logs 6, 8, 21, 26). -/
def Obligations.HelloAndByeOpenAndCloseALink : Prop :=
  (∀ (k : KioskId) (s : State), s.loader.starting = false → (s.kiosks.get k).up = false →
    ∃ t, exec (.hello (.kiosk k) (.fields ())) s = .next (finish t t)
      ∧ (t.kiosks.get k).up = true ∧ (t.kiosks.get k).silence = some (after s.tick 30000)
      ∧ (t.kiosks.get k).outstanding = true ∧ (t.kiosks.get k).rx = []
      ∧ (t.kiosks.get k).turn = .notices ∧ (t.kiosks.get k).lastPort = 11
      ∧ (t.kiosks.get k).sending = (s.kiosks.get k).sending
      ∧ Replies (.kiosk k) Kind.hello .ok (.helloKiosk k (s.profiles.get k) s.hall) t
      ∧ Queued .staff (.kioskState k true (s.profiles.get k) .hello) t
      ∧ Only (theseTold [.unit (.kiosk k), .slot (.kiosk k), .transmitter (.kiosk k)] (· = .staff)) s t)
  ∧
  (∀ (s : State), s.loader.starting = false → s.staff.up = false → s.staff.queue = [] →
    ∃ t, exec (.hello .staff (.fields ())) s = .next (finish t t)
      ∧ t.staff.up = true ∧ t.staff.silence = some (after s.tick 30000) ∧ t.staff.outstanding = true
      ∧ t.staff.turn = .notices ∧ t.staff.lastPort = 11 ∧ t.staff.sending = s.staff.sending
      ∧ Replies .staff Kind.hello .ok
          (.helloStaff s.hall (allKiosks.map fun k => (s.kiosks.get k).up)) t
      ∧ Queued .staff (.hubState s.loader.outcome s.loader.save 1) t
      ∧ Queued .staff (.hallState s.hall s.counts) t
      ∧ (∀ p, s.cls p ≠ .unused → Queued .staff
          (.portState { port := p, cls := s.cls p, cond := s.cond p, before := s.cond p
                        cause := if s.cond p = .absent then .announce else (s.ctls.get p).cause
                        fault := if s.cond p = .stalled ∨ s.cond p = .checking then (s.ctls.get p).fault
                          else none
                        identity := (s.ctls.get p).identity, reportedClass := none }) t)
      ∧ (∀ p, (s.takes.get p).state ≠ .free →
          (s.takes.get p).shield = none → Queued .staff (.takeState p (s.takes.get p).state none) t)
      ∧ Only (these [.unit .staff, .slot .staff, .transmitter .staff, .queue .staff]) s t)
  ∧
  (∀ (k : KioskId) (s : State), Listens (.kiosk k) s → JobIdsUnique s →
    ∃ t, exec (.hello (.kiosk k) (.fields ())) s = .next (finish t t)
      ∧ (t.kiosks.get k).up = true ∧ (t.kiosks.get k).silence = some (after s.tick 30000)
      ∧ (t.kiosks.get k).outstanding = true ∧ (t.kiosks.get k).overrun = false
      ∧ (t.kiosks.get k).queue = [] ∧ (t.kiosks.get k).gap = false ∧ (t.kiosks.get k).sending = none
      ∧ (t.kiosks.get k).turn = .notices ∧ (t.kiosks.get k).lastPort = 11
      ∧ (∀ p, Departed k p s t)
      ∧ t.hall = (if s.hall = .closing ∧ someFell s.counts t.counts = true ∧ t.quietCondition = true
          then .quiet else s.hall)
      ∧ Replies (.kiosk k) Kind.hello .ok (.helloKiosk k (s.profiles.get k) t.hall) t
      ∧ Queued .staff (.kioskState k true (s.profiles.get k) .hello) t
      ∧ (s.hall = .closing → someFell s.counts t.counts = true → StaffKeeps k s →
          Queued .staff (.hallState t.hall t.counts) t)
      ∧ Only (fun x => x = .hall ∨ departing k x) s t)
  ∧
  (∀ (l : LinkId) (s : State), Listens l s →
    ∃ t, exec (.hello l .wrongLength) s = .next (finish t t)
      ∧ Replies l Kind.hello .badValue .bare t
      ∧ Only (these (asked l)) s t)
  ∧
  (∀ (l : LinkId) (s : State), s.loader.starting = false → (s.link l).up = false →
    ∃ t, exec (.hello l .wrongLength) s = .next (finish t t)
      ∧ (t.link l).up = false ∧ (t.link l).silence = (s.link l).silence
      ∧ (t.link l).outstanding = (s.link l).outstanding
      ∧ Only (these [.unit l]) s t)
  ∧
  (∀ (l : LinkId) (s : State), Listens l s →
    ∃ t, exec (.bye l (.fields ())) s = .next (finish s t)
      ∧ (t.link l).up = true ∧ (t.link l).outstanding = true
      ∧ (t.link l).silence = some (after s.tick 30000)
      ∧ Replies l Kind.bye .ok .bare t
      ∧ Only (these (asked l)) s t)
  ∧
  (∀ (s : State), Listens .staff s → ScansOnScanners s →
    ∃ t, exec (.hello .staff (.fields ())) s = .next (finish t t)
      ∧ t.staff.up = true ∧ t.staff.silence = some (after s.tick 30000) ∧ t.staff.outstanding = true
      ∧ t.staff.overrun = false ∧ t.staff.gap = false ∧ t.staff.sending = none ∧ t.staff.rx = []
      ∧ t.staff.turn = .notices ∧ t.staff.lastPort = 11
      ∧ Replies .staff Kind.hello .ok
          (.helloStaff s.hall (allKiosks.map fun k => (s.kiosks.get k).up)) t
      ∧ t.loader = { s.loader with awaiting := false }
      ∧ (∀ p, ∀ x, (s.scanners.get p).scan = some x → x.requester = .staff → x.abortSent = false →
          x.state ≠ .ending →
          (t.scanners.get p).scan = some { x with
            abortSent := true, reason := some .linkLost, code := none, resultGiven := true })
      ∧ (∀ p, ∀ x, t.streams.get p = some x → x.partner ≠ .staff)
      ∧ (∀ p, ∀ c ∈ (t.panels.get p).contacts, c.dest = .link .staff → c.live = false)
      ∧ t.claims.map (fun l => l.map (·.kiosk)) = s.claims.map (fun l => l.map (·.kiosk))
      ∧ t.power = s.power ∧ t.printers = s.printers
      ∧ Queued .staff (.hubState s.loader.outcome s.loader.save 1) t
      ∧ Queued .staff (.hallState s.hall s.counts) t
      ∧ (∀ p, s.cls p ≠ .unused → Queued .staff
          (.portState { port := p, cls := s.cls p, cond := s.cond p, before := s.cond p
                        cause := if s.cond p = .absent then .announce else (s.ctls.get p).cause
                        fault := if s.cond p = .stalled ∨ s.cond p = .checking then (s.ctls.get p).fault
                          else none
                        identity := (s.ctls.get p).identity, reportedClass := none }) t)
      ∧ (∀ p, (t.takes.get p).state ≠ .free → (t.takes.get p).shield = none →
          Queued .staff (.takeState p (t.takes.get p).state none) t)
      ∧ Only (fun x => x ∈ .loader :: linkParts .staff ∨ (∃ p, x ∈ [.claims p, .takeover p, .scanner p,
          .stream p, .contacts p, .waits p, .commands p]) ∨ told (fun _ => True) x) s t)
  ∧
  ∀ (l : LinkId) (b : Body Unit) (s : State), s.loader.starting = false → (s.link l).up = true →
    (s.link l).outstanding = true →
    ∃ t, exec (.hello l b) s = .next (finish t t)
      ∧ (t.link l).overrun = true ∧ (t.link l).outstanding = true
      ∧ (t.link l).silence = some (after s.tick 30000)
      ∧ Only (these [.unit l, .overrun l]) s t

/-- A reached silence deadline, the end of a BYE's reply and KIOSK_DROP take a link DOWN with all its work
(10_kiosk_and_staff_links.md, Link states, 10_kiosk_and_staff_links.md, Kiosk profiles,
01_claims_and_grants.md, How a claim ends, 03_print_jobs.md, Jobs and the rest of the hub, 04_scanning.md,
Aborts from the rest of the hub, 07_streams_and_kiosk_delivery.md, Closing, 09_power_levels.md, Removal of
votes). LINK_SILENCE of a kiosk at a reached deadline, FRAME_SENT of its BYE's OK reply and KIOSK_DROP of an
UP kiosk complete with the link DOWN, its unit, slot, queue and transmitter empty, its records gone from
every claim list with the others' order kept, its queued jobs gone, its job in flight aborted KIOSK_LOST
unless it was being aborted, its votes and streams gone and no contact LIVE that is pinned to it;
KIOSK_STATE with the cause is handed to staff (read where no scan of the kiosk is in flight, whose end could
complete takes, or in a staff queue of at most 19 items, since the notices of completed takes may push an
older item out of a full one), and KIOSK_DROP is answered OK DOWN, also when the link was DOWN already. The
same two expiries on the staff link, where every scan in flight stands on a port of class SCANNER, take it
DOWN, close its streams, end its contacts, abort staff scans STARTING or SCANNING with LINK_LOST, give up a
LOAD's reply, and leave every claim list's kiosks, the printers and the power records as they were. Before
its deadline LINK_SILENCE changes nothing. A kiosk number above 23 is refused BAD_VALUE. That an expiry
before its deadline changes nothing, the order of what follows and the LOAD's reply given up are the model's
choice (logs 3, 8, 21). That the OK reply to KIOSK_DROP of a link already DOWN carries link state DOWN is the
model's choice too (log 49). -/
def Obligations.LinksGoDown : Prop :=
  (∀ (k : KioskId) (s : State), due s.tick (s.kiosks.get k).silence = true → JobIdsUnique s →
    ∃ t, exec (.linkSilence (.kiosk k)) s = .next (finish s t)
      ∧ WentDown (.kiosk k) t ∧ (∀ p, Departed k p s t)
      ∧ (StaffKeeps k s → Queued .staff (.kioskState k false (s.profiles.get k) .silence) t)
      ∧ Only (departing k) s t)
  ∧
  (∀ (k : KioskId) (s : State), ∀ r, replySending s (.kiosk k) = some r → r.kind = Kind.bye → r.code = .ok →
    JobIdsUnique s →
    ∃ t, exec (.frameSent (.kiosk k)) s = .next (finish s t)
      ∧ WentDown (.kiosk k) t ∧ (∀ p, Departed k p s t)
      ∧ (StaffKeeps k s → Queued .staff (.kioskState k false (s.profiles.get k) .bye) t)
      ∧ Only (departing k) s t)
  ∧
  (∀ (k : KioskId) (b : Byte) (s : State), kioskOf b = some k → Listens .staff s →
    (s.kiosks.get k).up = true → JobIdsUnique s →
    ∃ t, exec (.kioskDrop (.fields b)) s = .next (finish s t)
      ∧ WentDown (.kiosk k) t ∧ (∀ p, Departed k p s t)
      ∧ Replies .staff Kind.kioskDrop .ok (.linkState false) t
      ∧ (StaffKeeps k s → Queued .staff (.kioskState k false (s.profiles.get k) .drop) t)
      ∧ Only (fun x => departing k x ∨ x ∈ asked .staff) s t)
  ∧
  (∀ (k : KioskId) (b : Byte) (s : State), kioskOf b = some k → Listens .staff s →
    (s.kiosks.get k).up = false →
    ∃ t, exec (.kioskDrop (.fields b)) s = .next (finish s t)
      ∧ Replies .staff Kind.kioskDrop .ok (.linkState false) t
      ∧ Only (these (asked .staff)) s t)
  ∧
  (∀ (b : Byte) (s : State), 23 < b.toNat → Listens .staff s →
    ∃ t, exec (.kioskDrop (.fields b)) s = .next (finish s t)
      ∧ Replies .staff Kind.kioskDrop .badValue .bare t
      ∧ Only (these (asked .staff)) s t)
  ∧
  (∀ (i : Instr) (s : State), i ∈ [Instr.linkSilence .staff, .frameSent .staff] → ScansOnScanners s →
    (i = .linkSilence .staff → due s.tick s.staff.silence = true) →
    (i = .frameSent .staff → ∃ r ∈ replySending s .staff, r.kind = Kind.bye ∧ r.code = .ok) →
    ∃ t, exec i s = .next (finish s t)
      ∧ WentDown .staff t
      ∧ t.loader = { s.loader with awaiting := false }
      ∧ (∀ p, ∀ x, (s.scanners.get p).scan = some x → x.requester = .staff → x.abortSent = false →
          x.state ≠ .ending →
          (t.scanners.get p).scan = some { x with
            abortSent := true, reason := some .linkLost, code := none, resultGiven := true })
      ∧ (∀ p, ∀ x, t.streams.get p = some x → x.partner ≠ .staff)
      ∧ (∀ p, ∀ c ∈ (t.panels.get p).contacts, c.dest = .link .staff → c.live = false)
      ∧ t.claims.map (fun l => l.map (·.kiosk)) = s.claims.map (fun l => l.map (·.kiosk))
      ∧ t.power = s.power ∧ t.printers = s.printers
      ∧ Only (fun x => x ∈ .loader :: linkParts .staff ∨ (∃ p, x ∈ [.claims p, .takeover p, .scanner p,
          .stream p, .contacts p, .waits p, .commands p]) ∨ told (fun _ => True) x) s t)
  ∧
  ∀ (l : LinkId) (s : State), due s.tick (s.link l).silence = false →
    ∃ t, exec (.linkSilence l) s = .next (finish s t)
      ∧ t = s

/-- ADMIT and PROFILE_SET store the profile, and a flag gone off or a window changed ends what is no longer
allowed (10_kiosk_and_staff_links.md, Kiosk profiles, 01_claims_and_grants.md, How a claim ends,
03_print_jobs.md, Jobs and the rest of the hub, 09_power_levels.md, Removal of votes,
06_touch_routing_and_staff_sequences.md, The actions). For a listening staff link and a kiosk number 0 to
23, ADMIT with yes or no completes with the flag stored and the reply OK with the profile; KIOSK_STATE goes
to staff when the profile changed. When the flag goes off the kiosk's claims, queued jobs and votes are
gone, no contact pinned to it is LIVE, its jobs in flight run on, and its link stays UP; otherwise nothing
else changes. PROFILE_SET in the ranges stores class and windows and keeps the flag: when a window's set of
ports changed, the kiosk's claims and votes on ports in neither window go, and every list and vote within a
window stays; otherwise nothing else changes. A changed profile is told to staff in KIOSK_STATE, and each
end to the kiosk in CLAIM_STATE ENDED REACH (read where no scan of the kiosk is aborted besides, in queues
with places left). A kiosk above 23 or a value out of range is refused BAD_VALUE. KIOSK_QUERY completes with
OK and the kiosk's profile, link, counts and milliseconds of silence left, rounded up, 0 for a deadline
already reached by the model's choice (log 35), and changes nothing. -/
def Obligations.ProfilesAreSetAndRead : Prop :=
  (∀ (k : KioskId) (b : AdmitBody) (s : State), kioskOf b.kiosk = some k → Listens .staff s →
    ∀ v, yesNoOf b.admitted = some v → ((s.profiles.get k).admitted = false ∨ v = true) →
    ∃ t, exec (.setAdmission (.fields b)) s = .next (finish s t)
      ∧ t.profiles.get k = { s.profiles.get k with admitted := v }
      ∧ Replies .staff Kind.setAdmission .ok (.profile (t.profiles.get k)) t
      ∧ ((s.profiles.get k).admitted ≠ v → Queued .staff
          (.kioskState k (s.kiosks.get k).up (t.profiles.get k) .setAdmission) t)
      ∧ ((s.profiles.get k).admitted = v → Only (these (asked .staff)) s t)
      ∧ Only (theseTold (.profile k :: asked .staff) (· = .staff)) s t)
  ∧
  (∀ (k : KioskId) (b : AdmitBody) (s : State), kioskOf b.kiosk = some k → Listens .staff s →
    yesNoOf b.admitted = some false → (s.profiles.get k).admitted = true → JobIdsUnique s →
    ∃ t, exec (.setAdmission (.fields b)) s = .next (finish s t)
      ∧ t.profiles.get k = { s.profiles.get k with admitted := false }
      ∧ Replies .staff Kind.setAdmission .ok (.profile (t.profiles.get k)) t
      ∧ (HasSlack .staff s → (∀ p x, (s.scanners.get p).scan = some x → x.requester ≠ .kiosk k) →
          Queued .staff (.kioskState k (s.kiosks.get k).up (t.profiles.get k) .setAdmission) t)
      ∧ (∀ p, (t.claims.get p).map (·.kiosk) = ((s.claims.get p).map (·.kiosk)).filter (· ≠ k)
          ∧ (t.printers.get p).queue = (s.printers.get p).queue.filter (fun j => j.kiosk ≠ k)
          ∧ (t.printers.get p).inflight = (s.printers.get p).inflight
          ∧ (t.power.get p).votes.get k = none
          ∧ (∀ j, j ≠ k → (t.power.get p).votes.get j = (s.power.get p).votes.get j)
          ∧ ∀ c ∈ (t.panels.get p).contacts, c.dest = .link (.kiosk k) → c.live = false)
      ∧ (t.kiosks.get k).up = (s.kiosks.get k).up
      ∧ Only (fun x => x ∈ .profile k :: asked .staff ∨ (∃ p, x ∈ [.claims p, .takeover p, .printer p,
          .scanner p, .stream p, .votes p, .waits p, .commands p]) ∨ told (fun _ => True) x) s t)
  ∧
  (∀ (k : KioskId) (b : ProfileBody) (s : State), kioskOf b.kiosk = some k → Listens .staff s →
    ∀ c, claimClassOf b.cls = some c → ∀ b1, portOf b.w1Base = some b1 → ∀ l1, portOf b.w1Limit = some l1 →
    ∀ b2, portOf b.w2Base = some b2 → ∀ l2, portOf b.w2Limit = some l2 →
    ∃ t, exec (.profileSet (.fields b)) s = .next (finish s t)
      ∧ t.profiles.get k = ⟨(s.profiles.get k).admitted, c, ⟨b1, l1⟩, ⟨b2, l2⟩⟩
      ∧ Replies .staff Kind.profileSet .ok (.profile (t.profiles.get k)) t
      ∧ (∀ p, ((b1 ≤ p ∧ p ≤ l1) ∨ (b2 ≤ p ∧ p ≤ l2)) →
          t.claims.get p = s.claims.get p ∧ (t.power.get p).votes = (s.power.get p).votes)
      ∧ (∀ p, ¬ ((b1 ≤ p ∧ p ≤ l1) ∨ (b2 ≤ p ∧ p ≤ l2)) → inReach (s.profiles.get k) p = true →
          (t.claims.get p).map (·.kiosk) = ((s.claims.get p).map (·.kiosk)).filter (· ≠ k)
            ∧ (t.power.get p).votes.get k = none
            ∧ ∀ j, j ≠ k → (t.power.get p).votes.get j = (s.power.get p).votes.get j)
      ∧ ((∀ p x, (s.scanners.get p).scan = some x → x.requester ≠ .kiosk k) →
          (HasSlack .staff s → t.profiles.get k ≠ s.profiles.get k → Queued .staff
              (.kioskState k (s.kiosks.get k).up (t.profiles.get k) .profile) t)
            ∧ ((s.kiosks.get k).queue.length ≤ 16 →
              ∀ p, ¬ ((b1 ≤ p ∧ p ≤ l1) ∨ (b2 ≤ p ∧ p ≤ l2)) → inReach (s.profiles.get k) p = true →
                (claimOf (s.claims.get p) k).isSome = true →
                Queued (.kiosk k) (.claimState p (.ended .reach)) t))
      ∧ (∀ p, t.printers.get p = s.printers.get p)
      ∧ ((∀ p, (Window.has (s.profiles.get k).w1 p = true ↔ b1 ≤ p ∧ p ≤ l1)
            ∧ (Window.has (s.profiles.get k).w2 p = true ↔ b2 ≤ p ∧ p ≤ l2)) →
          Only (theseTold (.profile k :: asked .staff) (· = .staff)) s t)
      ∧ Only (fun x => x ∈ .profile k :: asked .staff ∨ (∃ p, x ∈ [.claims p, .takeover p,
          .scanner p, .stream p, .votes p, .waits p, .commands p]) ∨ told (fun _ => True) x) s t)
  ∧
  (∀ (b : AdmitBody) (s : State), Listens .staff s → (23 < b.kiosk.toNat ∨ 1 < b.admitted.toNat) →
    ∃ t, exec (.setAdmission (.fields b)) s = .next (finish s t)
      ∧ Replies .staff Kind.setAdmission .badValue .bare t
      ∧ Only (these (asked .staff)) s t)
  ∧
  (∀ (b : ProfileBody) (s : State), Listens .staff s →
    (23 < b.kiosk.toNat ∨ 3 < b.cls.toNat ∨ 11 < b.w1Base.toNat ∨ 11 < b.w1Limit.toNat
      ∨ 11 < b.w2Base.toNat ∨ 11 < b.w2Limit.toNat) →
    ∃ t, exec (.profileSet (.fields b)) s = .next (finish s t)
      ∧ Replies .staff Kind.profileSet .badValue .bare t
      ∧ Only (these (asked .staff)) s t)
  ∧
  (∀ (k : KioskId) (b : Byte) (s : State), kioskOf b = some k → Listens .staff s →
    ∃ t, exec (.kioskQuery (.fields b)) s = .next (finish s t)
      ∧ Replies .staff Kind.kioskQuery .ok (.kioskView
          { profile := s.profiles.get k, up := (s.kiosks.get k).up
            outstanding := (s.kiosks.get k).outstanding, claims := s.kioskClaims k, jobs := s.kioskJobs k
            votes := (allPorts.filter fun p => ((s.power.get p).votes.get k).isSome).length
            items := (s.kiosks.get k).queue.length, touches := touchCount (s.kiosks.get k).queue
            gapPending := (s.kiosks.get k).gap
            silenceLeft := (s.kiosks.get k).silence.map fun d => (left s.tick d + 9) / 10 }) t
      ∧ Only (these (asked .staff)) s t)
  ∧
  ∀ (b : Byte) (s : State), 23 < b.toNat → Listens .staff s →
    ∃ t, exec (.kioskQuery (.fields b)) s = .next (finish s t)
      ∧ Replies .staff Kind.kioskQuery .badValue .bare t
      ∧ Only (these (asked .staff)) s t

/-- The common checks refuse in their order, a second request is discarded with overrun, and a DOWN link
takes none (10_kiosk_and_staff_links.md, The common checks, 10_kiosk_and_staff_links.md, One request at a
time, 10_kiosk_and_staff_links.md, Link states, 12_frame_and_record_layouts.md, Body length, flags and
optional fields, 11_time_base_settings_memory_and_start_up.md, Start-up). On a listening link an unknown
kind is answered UNKNOWN_KIND. A kiosk that is not admitted is answered NOT_ADMITTED to every kind but
HELLO, BYE and PORT_QUERY, whatever the body; otherwise a wrong length is answered BAD_VALUE, on the staff
link for every kind; a kiosk's request, PORT_QUERY among them whatever its admission, for a port that does
not exist or is UNUSED is answered NO_SUCH_PORT, for one out of reach OUT_OF_REACH, and for one of an
unsuited class WRONG_CLASS; a staff request likewise but for reach, PORT_SET and PORT_QUERY taking an UNUSED
port. None of these changes more than the link unit and the reply. With a request outstanding, another on
the UP link (HELLO stands in HelloAndByeOpenAndCloseALink) sets overrun pending, reloads the silence timer
and changes nothing else. A request, a CHUNK or a CREDIT on a DOWN link is discarded, and during the
start-up read every frame of a link is. -/
def Obligations.CommonChecksDecideFirst : Prop :=
  (∀ (l : LinkId) (kind : Byte) (s : State), Listens l s →
    ∃ t, exec (.unknownKind l kind) s = .next (finish s t)
      ∧ Replies l kind .unknownKind .bare t
      ∧ Only (these (asked l)) s t)
  ∧
  (∀ (k : KioskId) (a : Body Byte) (b : Body SubmitBody) (c : Body Half) (d : Body ScanBody)
    (e : Body VoteBody) (x : Instr × Byte) (s : State),
    x ∈ [(.claim k a, Kind.claim), (.release k a, Kind.release), (.claimQuery k a, Kind.claimQuery),
      (.submit k b, Kind.submit), (.cancel k c, Kind.cancel), (.jobQuery k c, Kind.jobQuery),
      (.scan k d, Kind.scan), (.scanStop k a, Kind.scanStop), (.vote k e, Kind.vote)] →
    Listens (.kiosk k) s → (s.profiles.get k).admitted = false →
    ∃ t, exec x.1 s = .next (finish s t)
      ∧ Replies (.kiosk k) x.2 .notAdmitted .bare t
      ∧ Only (these (asked (.kiosk k))) s t)
  ∧
  (∀ (k : KioskId) (x : Instr × Byte) (s : State),
    x ∈ [(.claim k .wrongLength, Kind.claim), (.release k .wrongLength, Kind.release),
      (.claimQuery k .wrongLength, Kind.claimQuery), (.submit k .wrongLength, Kind.submit),
      (.cancel k .wrongLength, Kind.cancel), (.jobQuery k .wrongLength, Kind.jobQuery),
      (.scan k .wrongLength, Kind.scan), (.scanStop k .wrongLength, Kind.scanStop),
      (.vote k .wrongLength, Kind.vote)] →
    Listens (.kiosk k) s → (s.profiles.get k).admitted = true →
    ∃ t, exec x.1 s = .next (finish s t)
      ∧ Replies (.kiosk k) x.2 .badValue .bare t
      ∧ Only (these (asked (.kiosk k))) s t)
  ∧
  (∀ (x : Instr × Byte) (s : State),
    x ∈ [(.bye .staff .wrongLength, Kind.bye), (.portQuery .staff .wrongLength, Kind.portQuery),
      (.staffScan .wrongLength, Kind.scan), (.staffScanStop .wrongLength, Kind.scanStop),
      (.setAdmission .wrongLength, Kind.setAdmission), (.profileSet .wrongLength, Kind.profileSet),
      (.kioskQuery .wrongLength, Kind.kioskQuery), (.kioskDrop .wrongLength, Kind.kioskDrop),
      (.portSet .wrongLength, Kind.portSet), (.calibrate .wrongLength, Kind.calibrate),
      (.routeSet .wrongLength, Kind.routeSet), (.routeQuery .wrongLength, Kind.routeQuery),
      (.seqSet .wrongLength, Kind.seqSet), (.seqQuery .wrongLength, Kind.seqQuery),
      (.cueSet .wrongLength, Kind.cueSet), (.take .wrongLength, Kind.take),
      (.giveBack .wrongLength, Kind.giveBack), (.closeHall .wrongLength, Kind.closeHall),
      (.openHall .wrongLength, Kind.openHall), (.limit .wrongLength, Kind.limit),
      (.portReset .wrongLength, Kind.portReset), (.check .wrongLength, Kind.check),
      (.jobDrop .wrongLength, Kind.jobDrop), (.queueList .wrongLength, Kind.queueList),
      (.claimList .wrongLength, Kind.claimList), (.save .wrongLength, Kind.save),
      (.load .wrongLength, Kind.load), (.hubReset .wrongLength, Kind.hubReset),
      (.hubIdent .wrongLength, Kind.hubIdent)] → Listens .staff s →
    ∃ t, exec x.1 s = .next (finish s t)
      ∧ Replies .staff x.2 .badValue .bare t
      ∧ Only (these (asked .staff)) s t)
  ∧
  (∀ (k : KioskId) (n : Byte) (b : SubmitBody) (d : ScanBody) (e : VoteBody)
    (y : Instr × Byte × (PortClass → Bool)) (s : State),
    y ∈ [(.claim k (.fields n), Kind.claim, claimable),
      (.release k (.fields n), Kind.release, claimable),
      (.claimQuery k (.fields n), Kind.claimQuery, claimable),
      (.submit k (.fields { b with port := n }), Kind.submit, printable),
      (.scan k (.fields { d with port := n }), Kind.scan, scannable),
      (.scanStop k (.fields n), Kind.scanStop, scannable),
      (.vote k (.fields { e with port := n }), Kind.vote, anyClass)] →
    Listens (.kiosk k) s → (s.profiles.get k).admitted = true →
    (∀ p, portOf n = some p → ¬ Reaches k p y.2.2 s) →
    ∃ t, exec y.1 s = .next (finish s t)
      ∧ Replies (.kiosk k) y.2.1 (match portOf n with
          | none => .noSuchPort
          | some p => if s.cls p = .unused then .noSuchPort
              else if inReach (s.profiles.get k) p = false then .outOfReach else .wrongClass) .bare t
      ∧ Only (these (asked (.kiosk k))) s t)
  ∧
  (∀ (k : KioskId) (n : Byte) (s : State), Listens (.kiosk k) s →
    (∀ p, portOf n = some p → ¬ Reaches k p anyClass s) →
    ∃ t, exec (.portQuery (.kiosk k) (.fields n)) s = .next (finish s t)
      ∧ Replies (.kiosk k) Kind.portQuery (match portOf n with
          | none => .noSuchPort
          | some p => if s.cls p = .unused then .noSuchPort else .outOfReach) .bare t
      ∧ Only (these (asked (.kiosk k))) s t)
  ∧
  (∀ (k : KioskId) (x : Instr × Byte) (s : State),
    x ∈ [(.portQuery (.kiosk k) .wrongLength, Kind.portQuery), (.bye (.kiosk k) .wrongLength, Kind.bye)] →
    Listens (.kiosk k) s →
    ∃ t, exec x.1 s = .next (finish s t)
      ∧ Replies (.kiosk k) x.2 .badValue .bare t
      ∧ Only (these (asked (.kiosk k))) s t)
  ∧
  (∀ (n : Byte) (a : CheckBody) (b : ListBody) (c : ScanBody) (d : CalibrateBody) (e : RouteSetBody)
    (f : SeqSetBody) (y : Instr × Byte × (PortClass → Bool)) (s : State),
    y ∈ [(.take (.fields n), Kind.take, anyClass), (.giveBack (.fields n), Kind.giveBack, anyClass),
      (.portReset (.fields n), Kind.portReset, anyClass),
      (.check (.fields { a with port := n }), Kind.check, anyClass),
      (.queueList (.fields { b with port := n }), Kind.queueList, printable),
      (.claimList (.fields { b with port := n }), Kind.claimList, claimable),
      (.staffScan (.fields { c with port := n }), Kind.scan, scannable),
      (.staffScanStop (.fields n), Kind.scanStop, scannable),
      (.calibrate (.fields { d with port := n }), Kind.calibrate, touchable),
      (.routeSet (.fields { e with port := n }), Kind.routeSet, touchable),
      (.routeQuery (.fields n), Kind.routeQuery, touchable),
      (.seqSet (.fields { f with port := n }), Kind.seqSet, touchable),
      (.seqQuery (.fields n), Kind.seqQuery, touchable)] →
    Listens .staff s → (∀ p, portOf n = some p → s.cls p = .unused ∨ y.2.2 (s.cls p) = false) →
    ∃ t, exec y.1 s = .next (finish s t)
      ∧ Replies .staff y.2.1 (match portOf n with
          | none => .noSuchPort
          | some p => if s.cls p = .unused then .noSuchPort else .wrongClass) .bare t
      ∧ Only (these (asked .staff)) s t)
  ∧
  (∀ (n : Byte) (a : PortSetBody) (x : Instr × Byte) (s : State),
    x ∈ [(.portSet (.fields { a with port := n }), Kind.portSet),
      (.portQuery .staff (.fields n), Kind.portQuery)] → Listens .staff s → 11 < n.toNat →
    ∃ t, exec x.1 s = .next (finish s t)
      ∧ Replies .staff x.2 .noSuchPort .bare t
      ∧ Only (these (asked .staff)) s t)
  ∧
  (∀ (i : Instr) (s : State), ∀ l, requestOn i = some l → s.loader.starting = false →
    (s.link l).up = true → (s.link l).outstanding = true →
    ∃ t, exec i s = .next (finish s t)
      ∧ (t.link l).overrun = true ∧ (t.link l).outstanding = true
      ∧ (t.link l).silence = some (after s.tick 30000)
      ∧ Only (these [.unit l, .overrun l]) s t)
  ∧
  (∀ (i : Instr) (s : State), ∀ l, requestOn i = some l → s.loader.starting = false →
    (s.link l).up = false →
    ∃ t, exec i s = .next (finish s t)
      ∧ (t.link l).up = false ∧ (t.link l).silence = (s.link l).silence
      ∧ (t.link l).outstanding = (s.link l).outstanding
      ∧ Only (these [.unit l]) s t)
  ∧
  (∀ (l : LinkId) (b : Body ChunkBody) (c : Body CreditBody) (i : Instr) (s : State),
    i ∈ [Instr.chunk (.link l) b, .credit l c] → s.loader.starting = false → (s.link l).up = false →
    ∃ t, exec i s = .next (finish s t)
      ∧ (t.link l).up = false ∧ (t.link l).silence = (s.link l).silence
      ∧ Only (these [.unit l]) s t)
  ∧
  (∀ (i : Instr) (s : State), requestOn i ≠ none → s.loader.starting = true →
    ∃ t, exec i s = .next (finish s t)
      ∧ t = s)
  ∧
  ∀ (l : LinkId) (a : Body Unit) (b : Body ChunkBody) (c : Body CreditBody) (i : Instr) (s : State),
    i ∈ [Instr.hello l a, .chunk (.link l) b, .credit l c] → s.loader.starting = true →
    ∃ t, exec i s = .next (finish s t)
      ∧ t = s

/-- The hunt passes over a discarded frame's start byte only, and takes a valid frame hidden behind it
(10_kiosk_and_staff_links.md, Frames, 11_time_base_settings_memory_and_start_up.md, Start-up). The hunt
passes over a byte that is no start byte; from a start byte on it takes a valid frame and goes on behind it,
keeps the bytes of an incomplete one, and goes on right behind the start byte of one that is discarded.
DISCARDED_FRAME after the start-up read completes: when the bytes held and received hide no valid frame the
receiver keeps what the hunt keeps and nothing else changes; when they hide one that is a command, that
command is taken as an event of its own, which closes as it does when the command is given, and the receiver
then keeps what the hunt keeps, but for a HELLO that restarts an UP link, which goes DOWN with its receiver
in HUNT and the half-received bytes lost; that bytes reach the receiver so is the model's way (log 15).
During the start-up read nothing changes. -/
def Obligations.DiscardedFramesAreHuntedAgain : Prop :=
  (∀ (b : Byte) (bs : List Byte), b ≠ startByte → hunt (b :: bs) = hunt bs)
  ∧
  (∀ (bs : List Byte), examine bs = .discarded → hunt (startByte :: bs) = hunt bs)
  ∧
  (∀ (bs rest : List Byte) (f : Frame), examine bs = .valid f rest →
    hunt (startByte :: bs) = (f :: (hunt rest).1, (hunt rest).2))
  ∧
  (∀ (bs : List Byte), examine bs = .incomplete → hunt (startByte :: bs) = ([], startByte :: bs))
  ∧
  (∀ (l : LinkId) (bytes : List Byte) (s : State), s.loader.starting = false →
    (hunt ((s.link l).rx ++ bytes)).1 = [] →
    ∃ t, exec (.discardedFrame (.link l) bytes) s = .next (finish t t)
      ∧ (t.link l).rx = (hunt ((s.link l).rx ++ bytes)).2 ∧ (t.link l).silence = (s.link l).silence
      ∧ (t.link l).up = (s.link l).up ∧ (t.link l).outstanding = (s.link l).outstanding
      ∧ Only (these [.unit l]) s t)
  ∧
  (∀ (p : PortId) (bytes : List Byte) (s : State), s.loader.starting = false →
    (hunt ((s.wires.get p).rx ++ bytes)).1 = [] →
    ∃ t, exec (.discardedFrame (.device p) bytes) s = .next (finish t t)
      ∧ (t.wires.get p).rx = (hunt ((s.wires.get p).rx ++ bytes)).2
      ∧ Only (these [.deviceReceiver p]) s t)
  ∧
  (∀ (w : Wire) (bytes : List Byte) (s : State), s.loader.starting = false →
    ∀ f, (hunt (s.rx w ++ bytes)).1 = [f] → ∀ i, frameCommand w s.tick f = some i →
    ∃ t u, exec (.discardedFrame w bytes) s = .next (finish t t)
      ∧ exec i s = .next (finish (countedFrom i s u) u)
      ∧ ((∃ l, i = .hello l (.fields ()) ∧ Listens l s) →
          t = keepBytes w [] (closeEvent (countedFrom i s u) u))
      ∧ ((∀ l, i = .hello l (.fields ()) → ¬ Listens l s) → u.loader.starting = false →
          t = keepBytes w (hunt (s.rx w ++ bytes)).2 (closeEvent (countedFrom i s u) u)))
  ∧
  ∀ (w : Wire) (bytes : List Byte) (s : State), s.loader.starting = true →
    ∃ t, exec (.discardedFrame w bytes) s = .next (finish t t)
      ∧ t = s

/-- Every command that is a frame decodes from its own bytes, whatever its operands and its link
(12_frame_and_record_layouts.md, The frame envelope, 12_frame_and_record_layouts.md, Kind codes,
12_frame_and_record_layouts.md, Bodies of received frames, 10_kiosk_and_staff_links.md, Frames). For every
well-formed command that is a frame with its fields, on a kiosk link, the staff link or a device link, the
frame that the layouts give for it has a body of at most 299 bytes and decodes to that command with every
operand as it was; and its bytes, with start byte, length, kind, body and check word, pass the receiver's
hunt as this one valid frame with nothing left. -/
def Obligations.FramesDecodeToTheirCommands : Prop :=
  ∀ (i : Instr) (w : Wire) (f : Frame), WellFormed i = true → frameOf i = some (w, f) →
    frameCommand w (arrivalOf i) f = some i ∧ f.body.length ≤ 299 ∧ hunt (frameBytes f) = ([f], [])

/-- A step with a command at the front of the queue is that command's execution on the queue's rest
(INDEX.md, Files, 95_what_each_step_holds.md, What each step holds). For every command and state, a step of
the state with the command at the front of its queue is exec of the command on the state with the rest of
the queue. -/
def Obligations.StepRunsTheFrontCommand : Prop :=
  ∀ (c : Instr) (rest : List Instr) (s : State),
    step { s with pending := c :: rest } = exec c { s with pending := rest }

/-- A step on an empty queue is one tick, and exactly the expiries that have fallen due then wait as
commands (11_time_base_settings_memory_and_start_up.md, The tick counter, 95_what_each_step_holds.md, What
each step holds). When no command waits, a step advances the tick counter by one and changes nothing else
but the queue, which then holds the expiry of each deadline that is reached at the new tick, and no other
command. That the block ticks when nothing waits, and that its expiries come as commands, is the model's
choice (logs 2 and 4). -/
def Obligations.IdleStepIsOneTick : Prop :=
  ∀ (s : State), s.pending = [] →
    ∃ t, step s = .next t
      ∧ t.tick = s.tick + 1 ∧ Only (these [.time, .pending]) s t
      ∧ (∀ p, (.idleExpiry p ∈ t.pending ↔ ∃ c, holderOf (s.claims.get p) = some c ∧
              due t.tick c.deadline = true)
          ∧ (.shieldExpiry p ∈ t.pending ↔ due t.tick (s.takes.get p).shield = true)
          ∧ (.gapExpiry p ∈ t.pending ↔ due t.tick (s.printers.get p).gap = true)
          ∧ (.kioskStall p ∈ t.pending ↔ ∃ x, s.streams.get p = some x ∧ x.direction = .pull ∧
              due t.tick x.stall = true)
          ∧ (.pushStall p ∈ t.pending ↔ ∃ x, s.streams.get p = some x ∧ x.direction = .push ∧
              due t.tick x.stall = true)
          ∧ (.cueSaturated p ∈ t.pending ↔ ∃ e, (s.panels.get p).cue = .tick e ∧
              due t.tick (some (after e 65535)) = true)
          ∧ (.seqExpiry p ∈ t.pending ↔ ∃ d, (s.panels.get p).seqState = .waitB d ∧
              due t.tick (some d) = true)
          ∧ (.responseTimeout p ∈ t.pending ↔ due t.tick (s.ctls.get p).response = true)
          ∧ (.adapterSilence p ∈ t.pending ↔ due t.tick (s.ctls.get p).silence = true)
          ∧ (.clearSpacingExpiry p ∈ t.pending ↔ due t.tick (s.ctls.get p).clearSpacing = true))
      ∧ (∀ l, .linkSilence l ∈ t.pending ↔ due t.tick (s.link l).silence = true)
      ∧ ∀ i ∈ t.pending, (∃ p, i ∈ [.idleExpiry p, .shieldExpiry p, .gapExpiry p, .kioskStall p,
          .pushStall p, .cueSaturated p, .seqExpiry p, .responseTimeout p, .adapterSilence p,
          .clearSpacingExpiry p]) ∨ ∃ l, i = .linkSilence l

/-- What follows a command's own effect changes transmitters, power levels, the hall, and what a sent chunk
ends, and no more (07_streams_and_kiosk_delivery.md, The link transmitters,
02_staff_takeover_and_hall_closing.md, Closing, 09_power_levels.md, Power transitions). For all two states,
finishing the second as the end of an event that began in the first changes the hall state, the overrun
flags, queues and transmitters of the links, and of each port the stream, the power level, the waits and
waiting commands, the device transmitter, and the contacts of DOWNs dropped to make room; the job, the scan,
the claims and the takeover record of a port change only where it has an open stream, whose last chunk may
end its scan or bring its job to ENDING. It changes no reply, request, profile, configuration, condition,
vote, deadline of the adapters, check record, setting, job id, or the queue of commands. That a transmitter
takes its frame at the end of the command that makes it ready is the model's reading (logs 5 to 7). -/
def Obligations.FinishChangesLittle : Prop :=
  ∀ (s t : State),
    Only (fun x => x = .hall ∨ (∃ l, x ∈ [.overrun l, .queue l, .transmitter l])
        ∨ ∃ p, x ∈ [.stream p, .printer p, .scanner p, .claims p, .takeover p, .contacts p, .waits p,
            .level p, .commands p, .deviceTransmitter p]) t (finish s t)
      ∧ (∀ p, t.streams.get p = none → (finish s t).streams.get p = none
          ∧ (finish s t).printers.get p = t.printers.get p
          ∧ (finish s t).scanners.get p = t.scanners.get p
          ∧ (finish s t).claims.get p = t.claims.get p ∧ (finish s t).takes.get p = t.takes.get p)
      ∧ (∀ p, ((finish s t).printers.get p).queue = (t.printers.get p).queue
          ∧ ((finish s t).printers.get p).gap = (t.printers.get p).gap
          ∧ ((finish s t).power.get p).reached = (t.power.get p).reached)
      ∧ (t.hall ≠ .closing → (finish s t).hall = t.hall)

/-- Every step keeps buffers, sender credit and owed credit of a stream at 4, and its stall deadline as it
runs (07_streams_and_kiosk_delivery.md, The stream record, 07_streams_and_kiosk_delivery.md, Owed credit and
the four buffers, 07_streams_and_kiosk_delivery.md, Stalls). From every state in which the buffers in use,
the sender's credit and the owed credit of each open stream add up to 4 and its stall deadline is present
exactly while it runs, a step gives a state in which they do. -/
def Obligations.StreamsKeepTheirCredit : Prop :=
  ∀ s t : State, StreamsBalance s → step s = .next t → StreamsBalance t

/-- Every step keeps each outbound queue within 32 items and 16 touch records, and each contact table within
10 entries (07_streams_and_kiosk_delivery.md, The outbound queues,
05_touch_panels_coordinates_and_contacts.md, The contact table). From every state in which each outbound
queue holds at most 32 items, of which at most 16 touch records, and each contact table at most 10 entries
with no id twice, a step gives a state in which they do. -/
def Obligations.QueuesAndTablesStayBounded : Prop :=
  ∀ s t : State, QueuesFit s ∧ ContactsBounded s → step s = .next t → QueuesFit t ∧ ContactsBounded t

/-- Every step keeps each claim list ordered, the pool within its bounds, and frozen deadlines absent
(01_claims_and_grants.md, The claim pool and the claim record, 01_claims_and_grants.md, The claim list,
01_claims_and_grants.md, Idle expiry). From every state in which each claim list has at most a holder at its
head and its waiters in ascending order of class with no kiosk twice, at most 48 records are in use and at
most 4 of one kiosk, and a waiter and a frozen holder have no idle deadline, a step gives such a state. -/
def Obligations.ClaimListsStayOrdered : Prop :=
  ∀ s t : State, ClaimsOrdered s ∧ DeadlinesFrozen s → step s = .next t →
    ClaimsOrdered t ∧ DeadlinesFrozen t

/-- Every step keeps the job pool within its bounds, queued jobs in queues, and job ids unique in 1 to 4095
(03_print_jobs.md, The job pool and the job record, 03_print_jobs.md, The printer queue). From every state
with at most 64 live jobs, at most 4 of one kiosk, the jobs of the queues QUEUED and those in flight not,
the next id and every live id in 1 to 4095 and no live id twice, a step gives such a state. -/
def Obligations.JobsStayBounded : Prop :=
  ∀ s t : State, JobsBounded s ∧ JobIdsUnique s → step s = .next t → JobsBounded t ∧ JobIdsUnique t

/-- While the hall is QUIET no claim, no job and no kiosk scan comes up
(02_staff_takeover_and_hall_closing.md, Closing, 02_staff_takeover_and_hall_closing.md, Quiet). From every
state in which a QUIET hall has no claim record in use, no live job and no kiosk scan in flight, a step
gives such a state. -/
def Obligations.AQuietHallStaysEmpty : Prop :=
  ∀ s t : State, QuietIsEmpty s → step s = .next t → QuietIsEmpty t

/-- A kiosk whose link is DOWN has no claim, queued job, vote, stream or LIVE contact, and its work in
flight is being aborted (10_kiosk_and_staff_links.md, Link states, 01_claims_and_grants.md, How a claim
ends, 03_print_jobs.md, Jobs and the rest of the hub, 04_scanning.md, Aborts from the rest of the hub,
09_power_levels.md, Removal of votes, 07_streams_and_kiosk_delivery.md, Closing). From every state with
ordered claim lists in which every scan in flight stands on a port of class SCANNER, a kiosk scan not being
aborted on one that its kiosk holds, an ABSENT port has no scan, every port is ABSENT during the start-up
read, and each kiosk whose link is DOWN has an empty outbound queue and reply slot, an idle transmitter, no
request outstanding, no claim record, no queued job, no vote, no stream, no LIVE contact pinned to it and no
job or scan in flight but one being aborted, a step gives such a state. -/
def Obligations.AKioskAwayHasNothing : Prop :=
  ∀ s t : State, ClaimsOrdered s ∧ DeadlinesFrozen s → ScansOwned s ∧ AwayHasNothing s →
    step s = .next t → ScansOwned t ∧ AwayHasNothing t

/-- Every step keeps the settings in force within the ranges of their rules
(08_device_ports_and_adapters.md, Port configuration, 05_touch_panels_coordinates_and_contacts.md, The
calibration record, 09_power_levels.md, The state of a port, 06_touch_routing_and_staff_sequences.md, The
sequence trigger). From every state in which the settings in force lie in the ranges of their rules, a step
gives a state in which they do, whatever the memory holds; that a valid image with a value out of its set
gives a value in range is the model's choice (log 46). -/
def Obligations.SettingsStayInRange : Prop :=
  ∀ s t : State, SettingsHeldInRange s → step s = .next t → SettingsHeldInRange t

/-- The state after reset meets every invariant that the steps keep
(11_time_base_settings_memory_and_start_up.md, Start-up). Right after reset the streams balance, the queues
and contact tables are within their bounds, the claim lists are ordered with frozen deadlines absent, the
jobs are bounded with unique ids, no QUIET hall has work, a kiosk away has nothing, and the settings are in
range. -/
def Obligations.ResetIsSafe : Prop :=
  Safe State.reset
end

