-- ==== Sys2Proof/Laws/State.lean ====
section
/-! SUPPORT. What each change of one record leaves of every field of the state, and what it makes of its own:
one lemma per field per update, so that no proof unfolds a record update. -/

namespace Sys2Proof.Machine

/-! ### onClaims -/

@[simp] theorem onClaims_tick (p : PortId) (f : List Claim → List Claim) (s : State) :
    (onClaims p f s).tick = s.tick := rfl

@[simp] theorem onClaims_cueLevel (p : PortId) (f : List Claim → List Claim) (s : State) :
    (onClaims p f s).cueLevel = s.cueLevel := rfl

@[simp] theorem onClaims_claims (p : PortId) (f : List Claim → List Claim) (s : State) :
    (onClaims p f s).claims = s.claims.modify p f := rfl

@[simp] theorem onClaims_takes (p : PortId) (f : List Claim → List Claim) (s : State) :
    (onClaims p f s).takes = s.takes := rfl

@[simp] theorem onClaims_hall (p : PortId) (f : List Claim → List Claim) (s : State) :
    (onClaims p f s).hall = s.hall := rfl

@[simp] theorem onClaims_printers (p : PortId) (f : List Claim → List Claim) (s : State) :
    (onClaims p f s).printers = s.printers := rfl

@[simp] theorem onClaims_nextJob (p : PortId) (f : List Claim → List Claim) (s : State) :
    (onClaims p f s).nextJob = s.nextJob := rfl

@[simp] theorem onClaims_scanners (p : PortId) (f : List Claim → List Claim) (s : State) :
    (onClaims p f s).scanners = s.scanners := rfl

@[simp] theorem onClaims_panels (p : PortId) (f : List Claim → List Claim) (s : State) :
    (onClaims p f s).panels = s.panels := rfl

@[simp] theorem onClaims_cueEdge (p : PortId) (f : List Claim → List Claim) (s : State) :
    (onClaims p f s).cueEdge = s.cueEdge := rfl

@[simp] theorem onClaims_streams (p : PortId) (f : List Claim → List Claim) (s : State) :
    (onClaims p f s).streams = s.streams := rfl

@[simp] theorem onClaims_kiosks (p : PortId) (f : List Claim → List Claim) (s : State) :
    (onClaims p f s).kiosks = s.kiosks := rfl

@[simp] theorem onClaims_staff (p : PortId) (f : List Claim → List Claim) (s : State) :
    (onClaims p f s).staff = s.staff := rfl

@[simp] theorem onClaims_profiles (p : PortId) (f : List Claim → List Claim) (s : State) :
    (onClaims p f s).profiles = s.profiles := rfl

@[simp] theorem onClaims_configs (p : PortId) (f : List Claim → List Claim) (s : State) :
    (onClaims p f s).configs = s.configs := rfl

@[simp] theorem onClaims_ctls (p : PortId) (f : List Claim → List Claim) (s : State) :
    (onClaims p f s).ctls = s.ctls := rfl

@[simp] theorem onClaims_power (p : PortId) (f : List Claim → List Claim) (s : State) :
    (onClaims p f s).power = s.power := rfl

@[simp] theorem onClaims_wires (p : PortId) (f : List Claim → List Claim) (s : State) :
    (onClaims p f s).wires = s.wires := rfl

@[simp] theorem onClaims_loader (p : PortId) (f : List Claim → List Claim) (s : State) :
    (onClaims p f s).loader = s.loader := rfl

@[simp] theorem onClaims_draws (p : PortId) (f : List Claim → List Claim) (s : State) :
    (onClaims p f s).draws = s.draws := rfl

@[simp] theorem onClaims_pending (p : PortId) (f : List Claim → List Claim) (s : State) :
    (onClaims p f s).pending = s.pending := rfl

@[simp] theorem onClaims_link (p : PortId) (f : List Claim → List Claim) (s : State) (l : LinkId) :
    (onClaims p f s).link l = s.link l := rfl

/-! ### onTake -/

@[simp] theorem onTake_tick (p : PortId) (f : Takeover → Takeover) (s : State) :
    (onTake p f s).tick = s.tick := rfl

@[simp] theorem onTake_cueLevel (p : PortId) (f : Takeover → Takeover) (s : State) :
    (onTake p f s).cueLevel = s.cueLevel := rfl

@[simp] theorem onTake_claims (p : PortId) (f : Takeover → Takeover) (s : State) :
    (onTake p f s).claims = s.claims := rfl

@[simp] theorem onTake_takes (p : PortId) (f : Takeover → Takeover) (s : State) :
    (onTake p f s).takes = s.takes.modify p f := rfl

@[simp] theorem onTake_hall (p : PortId) (f : Takeover → Takeover) (s : State) :
    (onTake p f s).hall = s.hall := rfl

@[simp] theorem onTake_printers (p : PortId) (f : Takeover → Takeover) (s : State) :
    (onTake p f s).printers = s.printers := rfl

@[simp] theorem onTake_nextJob (p : PortId) (f : Takeover → Takeover) (s : State) :
    (onTake p f s).nextJob = s.nextJob := rfl

@[simp] theorem onTake_scanners (p : PortId) (f : Takeover → Takeover) (s : State) :
    (onTake p f s).scanners = s.scanners := rfl

@[simp] theorem onTake_panels (p : PortId) (f : Takeover → Takeover) (s : State) :
    (onTake p f s).panels = s.panels := rfl

@[simp] theorem onTake_cueEdge (p : PortId) (f : Takeover → Takeover) (s : State) :
    (onTake p f s).cueEdge = s.cueEdge := rfl

@[simp] theorem onTake_streams (p : PortId) (f : Takeover → Takeover) (s : State) :
    (onTake p f s).streams = s.streams := rfl

@[simp] theorem onTake_kiosks (p : PortId) (f : Takeover → Takeover) (s : State) :
    (onTake p f s).kiosks = s.kiosks := rfl

@[simp] theorem onTake_staff (p : PortId) (f : Takeover → Takeover) (s : State) :
    (onTake p f s).staff = s.staff := rfl

@[simp] theorem onTake_profiles (p : PortId) (f : Takeover → Takeover) (s : State) :
    (onTake p f s).profiles = s.profiles := rfl

@[simp] theorem onTake_configs (p : PortId) (f : Takeover → Takeover) (s : State) :
    (onTake p f s).configs = s.configs := rfl

@[simp] theorem onTake_ctls (p : PortId) (f : Takeover → Takeover) (s : State) :
    (onTake p f s).ctls = s.ctls := rfl

@[simp] theorem onTake_power (p : PortId) (f : Takeover → Takeover) (s : State) :
    (onTake p f s).power = s.power := rfl

@[simp] theorem onTake_wires (p : PortId) (f : Takeover → Takeover) (s : State) :
    (onTake p f s).wires = s.wires := rfl

@[simp] theorem onTake_loader (p : PortId) (f : Takeover → Takeover) (s : State) :
    (onTake p f s).loader = s.loader := rfl

@[simp] theorem onTake_draws (p : PortId) (f : Takeover → Takeover) (s : State) :
    (onTake p f s).draws = s.draws := rfl

@[simp] theorem onTake_pending (p : PortId) (f : Takeover → Takeover) (s : State) :
    (onTake p f s).pending = s.pending := rfl

@[simp] theorem onTake_link (p : PortId) (f : Takeover → Takeover) (s : State) (l : LinkId) :
    (onTake p f s).link l = s.link l := rfl

/-! ### onPrinter -/

@[simp] theorem onPrinter_tick (p : PortId) (f : Printer → Printer) (s : State) :
    (onPrinter p f s).tick = s.tick := rfl

@[simp] theorem onPrinter_cueLevel (p : PortId) (f : Printer → Printer) (s : State) :
    (onPrinter p f s).cueLevel = s.cueLevel := rfl

@[simp] theorem onPrinter_claims (p : PortId) (f : Printer → Printer) (s : State) :
    (onPrinter p f s).claims = s.claims := rfl

@[simp] theorem onPrinter_takes (p : PortId) (f : Printer → Printer) (s : State) :
    (onPrinter p f s).takes = s.takes := rfl

@[simp] theorem onPrinter_hall (p : PortId) (f : Printer → Printer) (s : State) :
    (onPrinter p f s).hall = s.hall := rfl

@[simp] theorem onPrinter_printers (p : PortId) (f : Printer → Printer) (s : State) :
    (onPrinter p f s).printers = s.printers.modify p f := rfl

@[simp] theorem onPrinter_nextJob (p : PortId) (f : Printer → Printer) (s : State) :
    (onPrinter p f s).nextJob = s.nextJob := rfl

@[simp] theorem onPrinter_scanners (p : PortId) (f : Printer → Printer) (s : State) :
    (onPrinter p f s).scanners = s.scanners := rfl

@[simp] theorem onPrinter_panels (p : PortId) (f : Printer → Printer) (s : State) :
    (onPrinter p f s).panels = s.panels := rfl

@[simp] theorem onPrinter_cueEdge (p : PortId) (f : Printer → Printer) (s : State) :
    (onPrinter p f s).cueEdge = s.cueEdge := rfl

@[simp] theorem onPrinter_streams (p : PortId) (f : Printer → Printer) (s : State) :
    (onPrinter p f s).streams = s.streams := rfl

@[simp] theorem onPrinter_kiosks (p : PortId) (f : Printer → Printer) (s : State) :
    (onPrinter p f s).kiosks = s.kiosks := rfl

@[simp] theorem onPrinter_staff (p : PortId) (f : Printer → Printer) (s : State) :
    (onPrinter p f s).staff = s.staff := rfl

@[simp] theorem onPrinter_profiles (p : PortId) (f : Printer → Printer) (s : State) :
    (onPrinter p f s).profiles = s.profiles := rfl

@[simp] theorem onPrinter_configs (p : PortId) (f : Printer → Printer) (s : State) :
    (onPrinter p f s).configs = s.configs := rfl

@[simp] theorem onPrinter_ctls (p : PortId) (f : Printer → Printer) (s : State) :
    (onPrinter p f s).ctls = s.ctls := rfl

@[simp] theorem onPrinter_power (p : PortId) (f : Printer → Printer) (s : State) :
    (onPrinter p f s).power = s.power := rfl

@[simp] theorem onPrinter_wires (p : PortId) (f : Printer → Printer) (s : State) :
    (onPrinter p f s).wires = s.wires := rfl

@[simp] theorem onPrinter_loader (p : PortId) (f : Printer → Printer) (s : State) :
    (onPrinter p f s).loader = s.loader := rfl

@[simp] theorem onPrinter_draws (p : PortId) (f : Printer → Printer) (s : State) :
    (onPrinter p f s).draws = s.draws := rfl

@[simp] theorem onPrinter_pending (p : PortId) (f : Printer → Printer) (s : State) :
    (onPrinter p f s).pending = s.pending := rfl

@[simp] theorem onPrinter_link (p : PortId) (f : Printer → Printer) (s : State) (l : LinkId) :
    (onPrinter p f s).link l = s.link l := rfl

/-! ### onScanner -/

@[simp] theorem onScanner_tick (p : PortId) (f : Scanner → Scanner) (s : State) :
    (onScanner p f s).tick = s.tick := rfl

@[simp] theorem onScanner_cueLevel (p : PortId) (f : Scanner → Scanner) (s : State) :
    (onScanner p f s).cueLevel = s.cueLevel := rfl

@[simp] theorem onScanner_claims (p : PortId) (f : Scanner → Scanner) (s : State) :
    (onScanner p f s).claims = s.claims := rfl

@[simp] theorem onScanner_takes (p : PortId) (f : Scanner → Scanner) (s : State) :
    (onScanner p f s).takes = s.takes := rfl

@[simp] theorem onScanner_hall (p : PortId) (f : Scanner → Scanner) (s : State) :
    (onScanner p f s).hall = s.hall := rfl

@[simp] theorem onScanner_printers (p : PortId) (f : Scanner → Scanner) (s : State) :
    (onScanner p f s).printers = s.printers := rfl

@[simp] theorem onScanner_nextJob (p : PortId) (f : Scanner → Scanner) (s : State) :
    (onScanner p f s).nextJob = s.nextJob := rfl

@[simp] theorem onScanner_scanners (p : PortId) (f : Scanner → Scanner) (s : State) :
    (onScanner p f s).scanners = s.scanners.modify p f := rfl

@[simp] theorem onScanner_panels (p : PortId) (f : Scanner → Scanner) (s : State) :
    (onScanner p f s).panels = s.panels := rfl

@[simp] theorem onScanner_cueEdge (p : PortId) (f : Scanner → Scanner) (s : State) :
    (onScanner p f s).cueEdge = s.cueEdge := rfl

@[simp] theorem onScanner_streams (p : PortId) (f : Scanner → Scanner) (s : State) :
    (onScanner p f s).streams = s.streams := rfl

@[simp] theorem onScanner_kiosks (p : PortId) (f : Scanner → Scanner) (s : State) :
    (onScanner p f s).kiosks = s.kiosks := rfl

@[simp] theorem onScanner_staff (p : PortId) (f : Scanner → Scanner) (s : State) :
    (onScanner p f s).staff = s.staff := rfl

@[simp] theorem onScanner_profiles (p : PortId) (f : Scanner → Scanner) (s : State) :
    (onScanner p f s).profiles = s.profiles := rfl

@[simp] theorem onScanner_configs (p : PortId) (f : Scanner → Scanner) (s : State) :
    (onScanner p f s).configs = s.configs := rfl

@[simp] theorem onScanner_ctls (p : PortId) (f : Scanner → Scanner) (s : State) :
    (onScanner p f s).ctls = s.ctls := rfl

@[simp] theorem onScanner_power (p : PortId) (f : Scanner → Scanner) (s : State) :
    (onScanner p f s).power = s.power := rfl

@[simp] theorem onScanner_wires (p : PortId) (f : Scanner → Scanner) (s : State) :
    (onScanner p f s).wires = s.wires := rfl

@[simp] theorem onScanner_loader (p : PortId) (f : Scanner → Scanner) (s : State) :
    (onScanner p f s).loader = s.loader := rfl

@[simp] theorem onScanner_draws (p : PortId) (f : Scanner → Scanner) (s : State) :
    (onScanner p f s).draws = s.draws := rfl

@[simp] theorem onScanner_pending (p : PortId) (f : Scanner → Scanner) (s : State) :
    (onScanner p f s).pending = s.pending := rfl

@[simp] theorem onScanner_link (p : PortId) (f : Scanner → Scanner) (s : State) (l : LinkId) :
    (onScanner p f s).link l = s.link l := rfl

/-! ### onPanel -/

@[simp] theorem onPanel_tick (p : PortId) (f : Panel → Panel) (s : State) :
    (onPanel p f s).tick = s.tick := rfl

@[simp] theorem onPanel_cueLevel (p : PortId) (f : Panel → Panel) (s : State) :
    (onPanel p f s).cueLevel = s.cueLevel := rfl

@[simp] theorem onPanel_claims (p : PortId) (f : Panel → Panel) (s : State) :
    (onPanel p f s).claims = s.claims := rfl

@[simp] theorem onPanel_takes (p : PortId) (f : Panel → Panel) (s : State) :
    (onPanel p f s).takes = s.takes := rfl

@[simp] theorem onPanel_hall (p : PortId) (f : Panel → Panel) (s : State) :
    (onPanel p f s).hall = s.hall := rfl

@[simp] theorem onPanel_printers (p : PortId) (f : Panel → Panel) (s : State) :
    (onPanel p f s).printers = s.printers := rfl

@[simp] theorem onPanel_nextJob (p : PortId) (f : Panel → Panel) (s : State) :
    (onPanel p f s).nextJob = s.nextJob := rfl

@[simp] theorem onPanel_scanners (p : PortId) (f : Panel → Panel) (s : State) :
    (onPanel p f s).scanners = s.scanners := rfl

@[simp] theorem onPanel_panels (p : PortId) (f : Panel → Panel) (s : State) :
    (onPanel p f s).panels = s.panels.modify p f := rfl

@[simp] theorem onPanel_cueEdge (p : PortId) (f : Panel → Panel) (s : State) :
    (onPanel p f s).cueEdge = s.cueEdge := rfl

@[simp] theorem onPanel_streams (p : PortId) (f : Panel → Panel) (s : State) :
    (onPanel p f s).streams = s.streams := rfl

@[simp] theorem onPanel_kiosks (p : PortId) (f : Panel → Panel) (s : State) :
    (onPanel p f s).kiosks = s.kiosks := rfl

@[simp] theorem onPanel_staff (p : PortId) (f : Panel → Panel) (s : State) :
    (onPanel p f s).staff = s.staff := rfl

@[simp] theorem onPanel_profiles (p : PortId) (f : Panel → Panel) (s : State) :
    (onPanel p f s).profiles = s.profiles := rfl

@[simp] theorem onPanel_configs (p : PortId) (f : Panel → Panel) (s : State) :
    (onPanel p f s).configs = s.configs := rfl

@[simp] theorem onPanel_ctls (p : PortId) (f : Panel → Panel) (s : State) :
    (onPanel p f s).ctls = s.ctls := rfl

@[simp] theorem onPanel_power (p : PortId) (f : Panel → Panel) (s : State) :
    (onPanel p f s).power = s.power := rfl

@[simp] theorem onPanel_wires (p : PortId) (f : Panel → Panel) (s : State) :
    (onPanel p f s).wires = s.wires := rfl

@[simp] theorem onPanel_loader (p : PortId) (f : Panel → Panel) (s : State) :
    (onPanel p f s).loader = s.loader := rfl

@[simp] theorem onPanel_draws (p : PortId) (f : Panel → Panel) (s : State) :
    (onPanel p f s).draws = s.draws := rfl

@[simp] theorem onPanel_pending (p : PortId) (f : Panel → Panel) (s : State) :
    (onPanel p f s).pending = s.pending := rfl

@[simp] theorem onPanel_link (p : PortId) (f : Panel → Panel) (s : State) (l : LinkId) :
    (onPanel p f s).link l = s.link l := rfl

/-! ### onStream -/

@[simp] theorem onStream_tick (p : PortId) (f : Option Stream → Option Stream) (s : State) :
    (onStream p f s).tick = s.tick := rfl

@[simp] theorem onStream_cueLevel (p : PortId) (f : Option Stream → Option Stream) (s : State) :
    (onStream p f s).cueLevel = s.cueLevel := rfl

@[simp] theorem onStream_claims (p : PortId) (f : Option Stream → Option Stream) (s : State) :
    (onStream p f s).claims = s.claims := rfl

@[simp] theorem onStream_takes (p : PortId) (f : Option Stream → Option Stream) (s : State) :
    (onStream p f s).takes = s.takes := rfl

@[simp] theorem onStream_hall (p : PortId) (f : Option Stream → Option Stream) (s : State) :
    (onStream p f s).hall = s.hall := rfl

@[simp] theorem onStream_printers (p : PortId) (f : Option Stream → Option Stream) (s : State) :
    (onStream p f s).printers = s.printers := rfl

@[simp] theorem onStream_nextJob (p : PortId) (f : Option Stream → Option Stream) (s : State) :
    (onStream p f s).nextJob = s.nextJob := rfl

@[simp] theorem onStream_scanners (p : PortId) (f : Option Stream → Option Stream) (s : State) :
    (onStream p f s).scanners = s.scanners := rfl

@[simp] theorem onStream_panels (p : PortId) (f : Option Stream → Option Stream) (s : State) :
    (onStream p f s).panels = s.panels := rfl

@[simp] theorem onStream_cueEdge (p : PortId) (f : Option Stream → Option Stream) (s : State) :
    (onStream p f s).cueEdge = s.cueEdge := rfl

@[simp] theorem onStream_streams (p : PortId) (f : Option Stream → Option Stream) (s : State) :
    (onStream p f s).streams = s.streams.modify p f := rfl

@[simp] theorem onStream_kiosks (p : PortId) (f : Option Stream → Option Stream) (s : State) :
    (onStream p f s).kiosks = s.kiosks := rfl

@[simp] theorem onStream_staff (p : PortId) (f : Option Stream → Option Stream) (s : State) :
    (onStream p f s).staff = s.staff := rfl

@[simp] theorem onStream_profiles (p : PortId) (f : Option Stream → Option Stream) (s : State) :
    (onStream p f s).profiles = s.profiles := rfl

@[simp] theorem onStream_configs (p : PortId) (f : Option Stream → Option Stream) (s : State) :
    (onStream p f s).configs = s.configs := rfl

@[simp] theorem onStream_ctls (p : PortId) (f : Option Stream → Option Stream) (s : State) :
    (onStream p f s).ctls = s.ctls := rfl

@[simp] theorem onStream_power (p : PortId) (f : Option Stream → Option Stream) (s : State) :
    (onStream p f s).power = s.power := rfl

@[simp] theorem onStream_wires (p : PortId) (f : Option Stream → Option Stream) (s : State) :
    (onStream p f s).wires = s.wires := rfl

@[simp] theorem onStream_loader (p : PortId) (f : Option Stream → Option Stream) (s : State) :
    (onStream p f s).loader = s.loader := rfl

@[simp] theorem onStream_draws (p : PortId) (f : Option Stream → Option Stream) (s : State) :
    (onStream p f s).draws = s.draws := rfl

@[simp] theorem onStream_pending (p : PortId) (f : Option Stream → Option Stream) (s : State) :
    (onStream p f s).pending = s.pending := rfl

@[simp] theorem onStream_link (p : PortId) (f : Option Stream → Option Stream) (s : State) (l : LinkId) :
    (onStream p f s).link l = s.link l := rfl

/-! ### onCtl -/

@[simp] theorem onCtl_tick (p : PortId) (f : PortCtl → PortCtl) (s : State) :
    (onCtl p f s).tick = s.tick := rfl

@[simp] theorem onCtl_cueLevel (p : PortId) (f : PortCtl → PortCtl) (s : State) :
    (onCtl p f s).cueLevel = s.cueLevel := rfl

@[simp] theorem onCtl_claims (p : PortId) (f : PortCtl → PortCtl) (s : State) :
    (onCtl p f s).claims = s.claims := rfl

@[simp] theorem onCtl_takes (p : PortId) (f : PortCtl → PortCtl) (s : State) :
    (onCtl p f s).takes = s.takes := rfl

@[simp] theorem onCtl_hall (p : PortId) (f : PortCtl → PortCtl) (s : State) :
    (onCtl p f s).hall = s.hall := rfl

@[simp] theorem onCtl_printers (p : PortId) (f : PortCtl → PortCtl) (s : State) :
    (onCtl p f s).printers = s.printers := rfl

@[simp] theorem onCtl_nextJob (p : PortId) (f : PortCtl → PortCtl) (s : State) :
    (onCtl p f s).nextJob = s.nextJob := rfl

@[simp] theorem onCtl_scanners (p : PortId) (f : PortCtl → PortCtl) (s : State) :
    (onCtl p f s).scanners = s.scanners := rfl

@[simp] theorem onCtl_panels (p : PortId) (f : PortCtl → PortCtl) (s : State) :
    (onCtl p f s).panels = s.panels := rfl

@[simp] theorem onCtl_cueEdge (p : PortId) (f : PortCtl → PortCtl) (s : State) :
    (onCtl p f s).cueEdge = s.cueEdge := rfl

@[simp] theorem onCtl_streams (p : PortId) (f : PortCtl → PortCtl) (s : State) :
    (onCtl p f s).streams = s.streams := rfl

@[simp] theorem onCtl_kiosks (p : PortId) (f : PortCtl → PortCtl) (s : State) :
    (onCtl p f s).kiosks = s.kiosks := rfl

@[simp] theorem onCtl_staff (p : PortId) (f : PortCtl → PortCtl) (s : State) :
    (onCtl p f s).staff = s.staff := rfl

@[simp] theorem onCtl_profiles (p : PortId) (f : PortCtl → PortCtl) (s : State) :
    (onCtl p f s).profiles = s.profiles := rfl

@[simp] theorem onCtl_configs (p : PortId) (f : PortCtl → PortCtl) (s : State) :
    (onCtl p f s).configs = s.configs := rfl

@[simp] theorem onCtl_ctls (p : PortId) (f : PortCtl → PortCtl) (s : State) :
    (onCtl p f s).ctls = s.ctls.modify p f := rfl

@[simp] theorem onCtl_power (p : PortId) (f : PortCtl → PortCtl) (s : State) :
    (onCtl p f s).power = s.power := rfl

@[simp] theorem onCtl_wires (p : PortId) (f : PortCtl → PortCtl) (s : State) :
    (onCtl p f s).wires = s.wires := rfl

@[simp] theorem onCtl_loader (p : PortId) (f : PortCtl → PortCtl) (s : State) :
    (onCtl p f s).loader = s.loader := rfl

@[simp] theorem onCtl_draws (p : PortId) (f : PortCtl → PortCtl) (s : State) :
    (onCtl p f s).draws = s.draws := rfl

@[simp] theorem onCtl_pending (p : PortId) (f : PortCtl → PortCtl) (s : State) :
    (onCtl p f s).pending = s.pending := rfl

@[simp] theorem onCtl_link (p : PortId) (f : PortCtl → PortCtl) (s : State) (l : LinkId) :
    (onCtl p f s).link l = s.link l := rfl

/-! ### onPower -/

@[simp] theorem onPower_tick (p : PortId) (f : Power → Power) (s : State) :
    (onPower p f s).tick = s.tick := rfl

@[simp] theorem onPower_cueLevel (p : PortId) (f : Power → Power) (s : State) :
    (onPower p f s).cueLevel = s.cueLevel := rfl

@[simp] theorem onPower_claims (p : PortId) (f : Power → Power) (s : State) :
    (onPower p f s).claims = s.claims := rfl

@[simp] theorem onPower_takes (p : PortId) (f : Power → Power) (s : State) :
    (onPower p f s).takes = s.takes := rfl

@[simp] theorem onPower_hall (p : PortId) (f : Power → Power) (s : State) :
    (onPower p f s).hall = s.hall := rfl

@[simp] theorem onPower_printers (p : PortId) (f : Power → Power) (s : State) :
    (onPower p f s).printers = s.printers := rfl

@[simp] theorem onPower_nextJob (p : PortId) (f : Power → Power) (s : State) :
    (onPower p f s).nextJob = s.nextJob := rfl

@[simp] theorem onPower_scanners (p : PortId) (f : Power → Power) (s : State) :
    (onPower p f s).scanners = s.scanners := rfl

@[simp] theorem onPower_panels (p : PortId) (f : Power → Power) (s : State) :
    (onPower p f s).panels = s.panels := rfl

@[simp] theorem onPower_cueEdge (p : PortId) (f : Power → Power) (s : State) :
    (onPower p f s).cueEdge = s.cueEdge := rfl

@[simp] theorem onPower_streams (p : PortId) (f : Power → Power) (s : State) :
    (onPower p f s).streams = s.streams := rfl

@[simp] theorem onPower_kiosks (p : PortId) (f : Power → Power) (s : State) :
    (onPower p f s).kiosks = s.kiosks := rfl

@[simp] theorem onPower_staff (p : PortId) (f : Power → Power) (s : State) :
    (onPower p f s).staff = s.staff := rfl

@[simp] theorem onPower_profiles (p : PortId) (f : Power → Power) (s : State) :
    (onPower p f s).profiles = s.profiles := rfl

@[simp] theorem onPower_configs (p : PortId) (f : Power → Power) (s : State) :
    (onPower p f s).configs = s.configs := rfl

@[simp] theorem onPower_ctls (p : PortId) (f : Power → Power) (s : State) :
    (onPower p f s).ctls = s.ctls := rfl

@[simp] theorem onPower_power (p : PortId) (f : Power → Power) (s : State) :
    (onPower p f s).power = s.power.modify p f := rfl

@[simp] theorem onPower_wires (p : PortId) (f : Power → Power) (s : State) :
    (onPower p f s).wires = s.wires := rfl

@[simp] theorem onPower_loader (p : PortId) (f : Power → Power) (s : State) :
    (onPower p f s).loader = s.loader := rfl

@[simp] theorem onPower_draws (p : PortId) (f : Power → Power) (s : State) :
    (onPower p f s).draws = s.draws := rfl

@[simp] theorem onPower_pending (p : PortId) (f : Power → Power) (s : State) :
    (onPower p f s).pending = s.pending := rfl

@[simp] theorem onPower_link (p : PortId) (f : Power → Power) (s : State) (l : LinkId) :
    (onPower p f s).link l = s.link l := rfl

/-! ### onWire -/

@[simp] theorem onWire_tick (p : PortId) (f : DeviceWire → DeviceWire) (s : State) :
    (onWire p f s).tick = s.tick := rfl

@[simp] theorem onWire_cueLevel (p : PortId) (f : DeviceWire → DeviceWire) (s : State) :
    (onWire p f s).cueLevel = s.cueLevel := rfl

@[simp] theorem onWire_claims (p : PortId) (f : DeviceWire → DeviceWire) (s : State) :
    (onWire p f s).claims = s.claims := rfl

@[simp] theorem onWire_takes (p : PortId) (f : DeviceWire → DeviceWire) (s : State) :
    (onWire p f s).takes = s.takes := rfl

@[simp] theorem onWire_hall (p : PortId) (f : DeviceWire → DeviceWire) (s : State) :
    (onWire p f s).hall = s.hall := rfl

@[simp] theorem onWire_printers (p : PortId) (f : DeviceWire → DeviceWire) (s : State) :
    (onWire p f s).printers = s.printers := rfl

@[simp] theorem onWire_nextJob (p : PortId) (f : DeviceWire → DeviceWire) (s : State) :
    (onWire p f s).nextJob = s.nextJob := rfl

@[simp] theorem onWire_scanners (p : PortId) (f : DeviceWire → DeviceWire) (s : State) :
    (onWire p f s).scanners = s.scanners := rfl

@[simp] theorem onWire_panels (p : PortId) (f : DeviceWire → DeviceWire) (s : State) :
    (onWire p f s).panels = s.panels := rfl

@[simp] theorem onWire_cueEdge (p : PortId) (f : DeviceWire → DeviceWire) (s : State) :
    (onWire p f s).cueEdge = s.cueEdge := rfl

@[simp] theorem onWire_streams (p : PortId) (f : DeviceWire → DeviceWire) (s : State) :
    (onWire p f s).streams = s.streams := rfl

@[simp] theorem onWire_kiosks (p : PortId) (f : DeviceWire → DeviceWire) (s : State) :
    (onWire p f s).kiosks = s.kiosks := rfl

@[simp] theorem onWire_staff (p : PortId) (f : DeviceWire → DeviceWire) (s : State) :
    (onWire p f s).staff = s.staff := rfl

@[simp] theorem onWire_profiles (p : PortId) (f : DeviceWire → DeviceWire) (s : State) :
    (onWire p f s).profiles = s.profiles := rfl

@[simp] theorem onWire_configs (p : PortId) (f : DeviceWire → DeviceWire) (s : State) :
    (onWire p f s).configs = s.configs := rfl

@[simp] theorem onWire_ctls (p : PortId) (f : DeviceWire → DeviceWire) (s : State) :
    (onWire p f s).ctls = s.ctls := rfl

@[simp] theorem onWire_power (p : PortId) (f : DeviceWire → DeviceWire) (s : State) :
    (onWire p f s).power = s.power := rfl

@[simp] theorem onWire_wires (p : PortId) (f : DeviceWire → DeviceWire) (s : State) :
    (onWire p f s).wires = s.wires.modify p f := rfl

@[simp] theorem onWire_loader (p : PortId) (f : DeviceWire → DeviceWire) (s : State) :
    (onWire p f s).loader = s.loader := rfl

@[simp] theorem onWire_draws (p : PortId) (f : DeviceWire → DeviceWire) (s : State) :
    (onWire p f s).draws = s.draws := rfl

@[simp] theorem onWire_pending (p : PortId) (f : DeviceWire → DeviceWire) (s : State) :
    (onWire p f s).pending = s.pending := rfl

@[simp] theorem onWire_link (p : PortId) (f : DeviceWire → DeviceWire) (s : State) (l : LinkId) :
    (onWire p f s).link l = s.link l := rfl

/-! ### onLink -/

@[simp] theorem onLink_tick (l : LinkId) (f : LinkUnit → LinkUnit) (s : State) :
    (onLink l f s).tick = s.tick := by cases l <;> rfl

@[simp] theorem onLink_cueLevel (l : LinkId) (f : LinkUnit → LinkUnit) (s : State) :
    (onLink l f s).cueLevel = s.cueLevel := by cases l <;> rfl

@[simp] theorem onLink_claims (l : LinkId) (f : LinkUnit → LinkUnit) (s : State) :
    (onLink l f s).claims = s.claims := by cases l <;> rfl

@[simp] theorem onLink_takes (l : LinkId) (f : LinkUnit → LinkUnit) (s : State) :
    (onLink l f s).takes = s.takes := by cases l <;> rfl

@[simp] theorem onLink_hall (l : LinkId) (f : LinkUnit → LinkUnit) (s : State) :
    (onLink l f s).hall = s.hall := by cases l <;> rfl

@[simp] theorem onLink_printers (l : LinkId) (f : LinkUnit → LinkUnit) (s : State) :
    (onLink l f s).printers = s.printers := by cases l <;> rfl

@[simp] theorem onLink_nextJob (l : LinkId) (f : LinkUnit → LinkUnit) (s : State) :
    (onLink l f s).nextJob = s.nextJob := by cases l <;> rfl

@[simp] theorem onLink_scanners (l : LinkId) (f : LinkUnit → LinkUnit) (s : State) :
    (onLink l f s).scanners = s.scanners := by cases l <;> rfl

@[simp] theorem onLink_panels (l : LinkId) (f : LinkUnit → LinkUnit) (s : State) :
    (onLink l f s).panels = s.panels := by cases l <;> rfl

@[simp] theorem onLink_cueEdge (l : LinkId) (f : LinkUnit → LinkUnit) (s : State) :
    (onLink l f s).cueEdge = s.cueEdge := by cases l <;> rfl

@[simp] theorem onLink_streams (l : LinkId) (f : LinkUnit → LinkUnit) (s : State) :
    (onLink l f s).streams = s.streams := by cases l <;> rfl

@[simp] theorem onLink_profiles (l : LinkId) (f : LinkUnit → LinkUnit) (s : State) :
    (onLink l f s).profiles = s.profiles := by cases l <;> rfl

@[simp] theorem onLink_configs (l : LinkId) (f : LinkUnit → LinkUnit) (s : State) :
    (onLink l f s).configs = s.configs := by cases l <;> rfl

@[simp] theorem onLink_ctls (l : LinkId) (f : LinkUnit → LinkUnit) (s : State) :
    (onLink l f s).ctls = s.ctls := by cases l <;> rfl

@[simp] theorem onLink_power (l : LinkId) (f : LinkUnit → LinkUnit) (s : State) :
    (onLink l f s).power = s.power := by cases l <;> rfl

@[simp] theorem onLink_wires (l : LinkId) (f : LinkUnit → LinkUnit) (s : State) :
    (onLink l f s).wires = s.wires := by cases l <;> rfl

@[simp] theorem onLink_loader (l : LinkId) (f : LinkUnit → LinkUnit) (s : State) :
    (onLink l f s).loader = s.loader := by cases l <;> rfl

@[simp] theorem onLink_draws (l : LinkId) (f : LinkUnit → LinkUnit) (s : State) :
    (onLink l f s).draws = s.draws := by cases l <;> rfl

@[simp] theorem onLink_pending (l : LinkId) (f : LinkUnit → LinkUnit) (s : State) :
    (onLink l f s).pending = s.pending := by cases l <;> rfl

@[simp] theorem onLink_link (l m : LinkId) (f : LinkUnit → LinkUnit) (s : State) :
    (onLink l f s).link m = if m = l then f (s.link m) else s.link m := by
  cases l <;> cases m <;> simp [onLink, State.link]

/-! ### onLoader -/

@[simp] theorem onLoader_tick (f : Loader → Loader) (s : State) :
    (onLoader f s).tick = s.tick := rfl

@[simp] theorem onLoader_cueLevel (f : Loader → Loader) (s : State) :
    (onLoader f s).cueLevel = s.cueLevel := rfl

@[simp] theorem onLoader_claims (f : Loader → Loader) (s : State) :
    (onLoader f s).claims = s.claims := rfl

@[simp] theorem onLoader_takes (f : Loader → Loader) (s : State) :
    (onLoader f s).takes = s.takes := rfl

@[simp] theorem onLoader_hall (f : Loader → Loader) (s : State) :
    (onLoader f s).hall = s.hall := rfl

@[simp] theorem onLoader_printers (f : Loader → Loader) (s : State) :
    (onLoader f s).printers = s.printers := rfl

@[simp] theorem onLoader_nextJob (f : Loader → Loader) (s : State) :
    (onLoader f s).nextJob = s.nextJob := rfl

@[simp] theorem onLoader_scanners (f : Loader → Loader) (s : State) :
    (onLoader f s).scanners = s.scanners := rfl

@[simp] theorem onLoader_panels (f : Loader → Loader) (s : State) :
    (onLoader f s).panels = s.panels := rfl

@[simp] theorem onLoader_cueEdge (f : Loader → Loader) (s : State) :
    (onLoader f s).cueEdge = s.cueEdge := rfl

@[simp] theorem onLoader_streams (f : Loader → Loader) (s : State) :
    (onLoader f s).streams = s.streams := rfl

@[simp] theorem onLoader_kiosks (f : Loader → Loader) (s : State) :
    (onLoader f s).kiosks = s.kiosks := rfl

@[simp] theorem onLoader_staff (f : Loader → Loader) (s : State) :
    (onLoader f s).staff = s.staff := rfl

@[simp] theorem onLoader_profiles (f : Loader → Loader) (s : State) :
    (onLoader f s).profiles = s.profiles := rfl

@[simp] theorem onLoader_configs (f : Loader → Loader) (s : State) :
    (onLoader f s).configs = s.configs := rfl

@[simp] theorem onLoader_ctls (f : Loader → Loader) (s : State) :
    (onLoader f s).ctls = s.ctls := rfl

@[simp] theorem onLoader_power (f : Loader → Loader) (s : State) :
    (onLoader f s).power = s.power := rfl

@[simp] theorem onLoader_wires (f : Loader → Loader) (s : State) :
    (onLoader f s).wires = s.wires := rfl

@[simp] theorem onLoader_loader (f : Loader → Loader) (s : State) :
    (onLoader f s).loader = f s.loader := rfl

@[simp] theorem onLoader_draws (f : Loader → Loader) (s : State) :
    (onLoader f s).draws = s.draws := rfl

@[simp] theorem onLoader_pending (f : Loader → Loader) (s : State) :
    (onLoader f s).pending = s.pending := rfl

@[simp] theorem onLoader_link (f : Loader → Loader) (s : State) (l : LinkId) :
    (onLoader f s).link l = s.link l := rfl

/-! ### The class and the condition of a port -/

@[simp] theorem onClaims_cls (q : PortId) (f : List Claim → List Claim) (s : State) (p : PortId) :
    (onClaims q f s).cls p = s.cls p := rfl

@[simp] theorem onClaims_cond (q : PortId) (f : List Claim → List Claim) (s : State) (p : PortId) :
    (onClaims q f s).cond p = s.cond p := rfl

@[simp] theorem onClaims_frozen (q : PortId) (f : List Claim → List Claim) (s : State) (p : PortId) (c : Claim) :
    (onClaims q f s).frozen p c = s.frozen p c := rfl

@[simp] theorem onClaims_armedDeadline (q : PortId) (f : List Claim → List Claim) (s : State) (p : PortId) :
    (onClaims q f s).armedDeadline p = s.armedDeadline p := rfl

@[simp] theorem onClaims_atReady (q : PortId) (f : List Claim → List Claim) (s : State) (p : PortId) :
    (onClaims q f s).atReady p = s.atReady p := rfl

@[simp] theorem onTake_cls (q : PortId) (f : Takeover → Takeover) (s : State) (p : PortId) :
    (onTake q f s).cls p = s.cls p := rfl

@[simp] theorem onTake_cond (q : PortId) (f : Takeover → Takeover) (s : State) (p : PortId) :
    (onTake q f s).cond p = s.cond p := rfl

@[simp] theorem onTake_holder (q : PortId) (f : Takeover → Takeover) (s : State) (p : PortId) :
    (onTake q f s).holder p = s.holder p := rfl

@[simp] theorem onTake_frozen (q : PortId) (f : Takeover → Takeover) (s : State) (p : PortId) (c : Claim) :
    (onTake q f s).frozen p c = s.frozen p c := rfl

@[simp] theorem onTake_armedDeadline (q : PortId) (f : Takeover → Takeover) (s : State) (p : PortId) :
    (onTake q f s).armedDeadline p = s.armedDeadline p := rfl

@[simp] theorem onTake_atReady (q : PortId) (f : Takeover → Takeover) (s : State) (p : PortId) :
    (onTake q f s).atReady p = s.atReady p := rfl

@[simp] theorem onPrinter_cls (q : PortId) (f : Printer → Printer) (s : State) (p : PortId) :
    (onPrinter q f s).cls p = s.cls p := rfl

@[simp] theorem onPrinter_cond (q : PortId) (f : Printer → Printer) (s : State) (p : PortId) :
    (onPrinter q f s).cond p = s.cond p := rfl

@[simp] theorem onPrinter_holder (q : PortId) (f : Printer → Printer) (s : State) (p : PortId) :
    (onPrinter q f s).holder p = s.holder p := rfl

@[simp] theorem onPrinter_frozen (q : PortId) (f : Printer → Printer) (s : State) (p : PortId) (c : Claim) :
    (onPrinter q f s).frozen p c = s.frozen p c := rfl

@[simp] theorem onPrinter_armedDeadline (q : PortId) (f : Printer → Printer) (s : State) (p : PortId) :
    (onPrinter q f s).armedDeadline p = s.armedDeadline p := rfl

@[simp] theorem onPrinter_atReady (q : PortId) (f : Printer → Printer) (s : State) (p : PortId) :
    (onPrinter q f s).atReady p = s.atReady p := rfl

@[simp] theorem onScanner_cls (q : PortId) (f : Scanner → Scanner) (s : State) (p : PortId) :
    (onScanner q f s).cls p = s.cls p := rfl

@[simp] theorem onScanner_cond (q : PortId) (f : Scanner → Scanner) (s : State) (p : PortId) :
    (onScanner q f s).cond p = s.cond p := rfl

@[simp] theorem onScanner_holder (q : PortId) (f : Scanner → Scanner) (s : State) (p : PortId) :
    (onScanner q f s).holder p = s.holder p := rfl

@[simp] theorem onScanner_armedDeadline (q : PortId) (f : Scanner → Scanner) (s : State) (p : PortId) :
    (onScanner q f s).armedDeadline p = s.armedDeadline p := rfl

@[simp] theorem onScanner_atReady (q : PortId) (f : Scanner → Scanner) (s : State) (p : PortId) :
    (onScanner q f s).atReady p = s.atReady p := rfl

@[simp] theorem onPanel_cls (q : PortId) (f : Panel → Panel) (s : State) (p : PortId) :
    (onPanel q f s).cls p = s.cls p := rfl

@[simp] theorem onPanel_cond (q : PortId) (f : Panel → Panel) (s : State) (p : PortId) :
    (onPanel q f s).cond p = s.cond p := rfl

@[simp] theorem onPanel_holder (q : PortId) (f : Panel → Panel) (s : State) (p : PortId) :
    (onPanel q f s).holder p = s.holder p := rfl

@[simp] theorem onPanel_frozen (q : PortId) (f : Panel → Panel) (s : State) (p : PortId) (c : Claim) :
    (onPanel q f s).frozen p c = s.frozen p c := rfl

@[simp] theorem onPanel_armedDeadline (q : PortId) (f : Panel → Panel) (s : State) (p : PortId) :
    (onPanel q f s).armedDeadline p = s.armedDeadline p := rfl

@[simp] theorem onPanel_atReady (q : PortId) (f : Panel → Panel) (s : State) (p : PortId) :
    (onPanel q f s).atReady p = s.atReady p := rfl

@[simp] theorem onStream_cls (q : PortId) (f : Option Stream → Option Stream) (s : State) (p : PortId) :
    (onStream q f s).cls p = s.cls p := rfl

@[simp] theorem onStream_cond (q : PortId) (f : Option Stream → Option Stream) (s : State) (p : PortId) :
    (onStream q f s).cond p = s.cond p := rfl

@[simp] theorem onStream_holder (q : PortId) (f : Option Stream → Option Stream) (s : State) (p : PortId) :
    (onStream q f s).holder p = s.holder p := rfl

@[simp] theorem onStream_frozen (q : PortId) (f : Option Stream → Option Stream) (s : State) (p : PortId) (c : Claim) :
    (onStream q f s).frozen p c = s.frozen p c := rfl

@[simp] theorem onStream_armedDeadline (q : PortId) (f : Option Stream → Option Stream) (s : State) (p : PortId) :
    (onStream q f s).armedDeadline p = s.armedDeadline p := rfl

@[simp] theorem onStream_atReady (q : PortId) (f : Option Stream → Option Stream) (s : State) (p : PortId) :
    (onStream q f s).atReady p = s.atReady p := rfl

@[simp] theorem onCtl_cls (q : PortId) (f : PortCtl → PortCtl) (s : State) (p : PortId) :
    (onCtl q f s).cls p = s.cls p := rfl

@[simp] theorem onCtl_holder (q : PortId) (f : PortCtl → PortCtl) (s : State) (p : PortId) :
    (onCtl q f s).holder p = s.holder p := rfl

@[simp] theorem onCtl_frozen (q : PortId) (f : PortCtl → PortCtl) (s : State) (p : PortId) (c : Claim) :
    (onCtl q f s).frozen p c = s.frozen p c := rfl

@[simp] theorem onCtl_armedDeadline (q : PortId) (f : PortCtl → PortCtl) (s : State) (p : PortId) :
    (onCtl q f s).armedDeadline p = s.armedDeadline p := rfl

@[simp] theorem onCtl_atReady (q : PortId) (f : PortCtl → PortCtl) (s : State) (p : PortId) :
    (onCtl q f s).atReady p = s.atReady p := rfl

@[simp] theorem onPower_cls (q : PortId) (f : Power → Power) (s : State) (p : PortId) :
    (onPower q f s).cls p = s.cls p := rfl

@[simp] theorem onPower_cond (q : PortId) (f : Power → Power) (s : State) (p : PortId) :
    (onPower q f s).cond p = s.cond p := rfl

@[simp] theorem onPower_holder (q : PortId) (f : Power → Power) (s : State) (p : PortId) :
    (onPower q f s).holder p = s.holder p := rfl

@[simp] theorem onPower_frozen (q : PortId) (f : Power → Power) (s : State) (p : PortId) (c : Claim) :
    (onPower q f s).frozen p c = s.frozen p c := rfl

@[simp] theorem onPower_armedDeadline (q : PortId) (f : Power → Power) (s : State) (p : PortId) :
    (onPower q f s).armedDeadline p = s.armedDeadline p := rfl

@[simp] theorem onWire_cls (q : PortId) (f : DeviceWire → DeviceWire) (s : State) (p : PortId) :
    (onWire q f s).cls p = s.cls p := rfl

@[simp] theorem onWire_cond (q : PortId) (f : DeviceWire → DeviceWire) (s : State) (p : PortId) :
    (onWire q f s).cond p = s.cond p := rfl

@[simp] theorem onWire_holder (q : PortId) (f : DeviceWire → DeviceWire) (s : State) (p : PortId) :
    (onWire q f s).holder p = s.holder p := rfl

@[simp] theorem onWire_frozen (q : PortId) (f : DeviceWire → DeviceWire) (s : State) (p : PortId) (c : Claim) :
    (onWire q f s).frozen p c = s.frozen p c := rfl

@[simp] theorem onWire_armedDeadline (q : PortId) (f : DeviceWire → DeviceWire) (s : State) (p : PortId) :
    (onWire q f s).armedDeadline p = s.armedDeadline p := rfl

@[simp] theorem onWire_atReady (q : PortId) (f : DeviceWire → DeviceWire) (s : State) (p : PortId) :
    (onWire q f s).atReady p = s.atReady p := rfl

@[simp] theorem onLink_cls (l : LinkId) (f : LinkUnit → LinkUnit) (s : State) (p : PortId) :
    (onLink l f s).cls p = s.cls p := by cases l <;> rfl

@[simp] theorem onLink_cond (l : LinkId) (f : LinkUnit → LinkUnit) (s : State) (p : PortId) :
    (onLink l f s).cond p = s.cond p := by cases l <;> rfl

@[simp] theorem onLink_holder (l : LinkId) (f : LinkUnit → LinkUnit) (s : State) (p : PortId) :
    (onLink l f s).holder p = s.holder p := by cases l <;> rfl

@[simp] theorem onLink_frozen (l : LinkId) (f : LinkUnit → LinkUnit) (s : State) (p : PortId) (c : Claim) :
    (onLink l f s).frozen p c = s.frozen p c := by cases l <;> rfl

@[simp] theorem onLink_armedDeadline (l : LinkId) (f : LinkUnit → LinkUnit) (s : State) (p : PortId) :
    (onLink l f s).armedDeadline p = s.armedDeadline p := by cases l <;> rfl

@[simp] theorem onLink_atReady (l : LinkId) (f : LinkUnit → LinkUnit) (s : State) (p : PortId) :
    (onLink l f s).atReady p = s.atReady p := by cases l <;> rfl

@[simp] theorem onLoader_cls (f : Loader → Loader) (s : State) (p : PortId) :
    (onLoader f s).cls p = s.cls p := rfl

@[simp] theorem onLoader_cond (f : Loader → Loader) (s : State) (p : PortId) :
    (onLoader f s).cond p = s.cond p := rfl

@[simp] theorem onLoader_holder (f : Loader → Loader) (s : State) (p : PortId) :
    (onLoader f s).holder p = s.holder p := rfl

@[simp] theorem onLoader_frozen (f : Loader → Loader) (s : State) (p : PortId) (c : Claim) :
    (onLoader f s).frozen p c = s.frozen p c := rfl

@[simp] theorem onLoader_armedDeadline (f : Loader → Loader) (s : State) (p : PortId) :
    (onLoader f s).armedDeadline p = s.armedDeadline p := rfl

@[simp] theorem onLoader_atReady (f : Loader → Loader) (s : State) (p : PortId) :
    (onLoader f s).atReady p = s.atReady p := rfl

end Sys2Proof.Machine
end

