-- ==== Sys2Proof/Laws/Frames.lean ====
section
/-! SUPPORT. Frames: how `Only` composes, and for each change of one record which parts it may change. Each lemma
adds an operation at the end of a frame, so that a frame is proved operation by operation. -/

namespace Sys2Proof.Safety

open Sys2Proof.Machine

variable {A B : Part → Prop} {s t u : State}

theorem Only.refl (A : Part → Prop) (s : State) : Only A s s := fun x => .inr (by cases x <;> simp [Part.same])

theorem Part.same_trans {x : Part} (h : x.same s t) (g : x.same t u) : x.same s u := by
  cases x <;> simp_all [Part.same]

theorem Only.trans (h : Only A s t) (g : Only A t u) : Only A s u := fun x =>
  (h x).elim .inl fun hx => (g x).imp id (Part.same_trans hx)

theorem Only.mono (hAB : ∀ x, A x → B x) (h : Only A s t) : Only B s t := fun x => (h x).imp (hAB x) id

theorem Only.of_eq (h : Only A s t) (e : u = t) : Only A s u := e ▸ h

/-- A conditional operation. -/
theorem Only.ite {c : Prop} [Decidable c] (h : c → Only A s t) (g : ¬c → Only A s u) :
    Only A s (if c then t else u) := by
  split
  · exact h ‹_›
  · exact g ‹_›

/-- An operation on every port. -/
theorem Only.forPorts {f : PortId → State → State} (h : Only A s t)
    (hf : ∀ p u, Only A s u → Only A s (f p u)) : Only A s (forPorts f t) := by
  unfold Machine.forPorts
  induction allPorts generalizing t with
  | nil => exact h
  | cons p ps ih => exact ih (hf p t h)

/-- An operation on every kiosk. -/
theorem Only.forKiosks {f : KioskId → State → State} (h : Only A s t)
    (hf : ∀ k u, Only A s u → Only A s (f k u)) : Only A s (forKiosks f t) := by
  unfold Machine.forKiosks
  induction allKiosks generalizing t with
  | nil => exact h
  | cons p ps ih => exact ih (hf p t h)

/-- An operation for each of a list. -/
theorem Only.foldl {α : Type} {f : State → α → State} (l : List α) (h : Only A s t)
    (hf : ∀ a u, Only A s u → Only A s (f u a)) : Only A s (l.foldl f t) := by
  induction l generalizing t with
  | nil => exact h
  | cons a as ih => exact ih (hf a t h)

/-! ### One record changed -/

theorem Only.onClaims {p : PortId} {f : List Claim → List Claim} (hA : A (.claims p)) (h : Only A s t) :
    Only A s (onClaims p f t) := by
  refine h.trans fun x => ?_
  cases x <;> simp [Part.same, State.cond]
  rename_i q
  by_cases e : q = p
  · exact .inl (e ▸ hA)
  · simp [e]

theorem Only.onTake {p : PortId} {f : Takeover → Takeover} (hA : A (.takeover p)) (h : Only A s t) :
    Only A s (onTake p f t) := by
  refine h.trans fun x => ?_
  cases x <;> simp [Part.same, State.cond]
  rename_i q
  by_cases e : q = p
  · exact .inl (e ▸ hA)
  · simp [e]

theorem Only.onPrinter {p : PortId} {f : Printer → Printer} (hA : A (.printer p)) (h : Only A s t) :
    Only A s (onPrinter p f t) := by
  refine h.trans fun x => ?_
  cases x <;> simp [Part.same, State.cond]
  rename_i q
  by_cases e : q = p
  · exact .inl (e ▸ hA)
  · simp [e]

theorem Only.onScanner {p : PortId} {f : Scanner → Scanner} (hA : A (.scanner p)) (h : Only A s t) :
    Only A s (onScanner p f t) := by
  refine h.trans fun x => ?_
  cases x <;> simp [Part.same, State.cond]
  rename_i q
  by_cases e : q = p
  · exact .inl (e ▸ hA)
  · simp [e]

theorem Only.onStream {p : PortId} {f : Option Stream → Option Stream} (hA : A (.stream p))
    (h : Only A s t) : Only A s (onStream p f t) := by
  refine h.trans fun x => ?_
  cases x <;> simp [Part.same, State.cond]
  rename_i q
  by_cases e : q = p
  · exact .inl (e ▸ hA)
  · simp [e]

/-- A panel's record, part by part. -/
theorem Only.onPanel {p : PortId} {f : Panel → Panel} (h : Only A s t)
    (h1 : A (.panelSettings p) ∨
      ∀ x, (f x).calibration = x.calibration ∧ (f x).routes = x.routes ∧ (f x).seq = x.seq)
    (h2 : A (.sequence p) ∨ ∀ x, (f x).seqState = x.seqState)
    (h3 : A (.cue p) ∨ ∀ x, (f x).cue = x.cue)
    (h4 : A (.contacts p) ∨ ∀ x, (f x).contacts = x.contacts) : Only A s (onPanel p f t) := by
  refine h.trans fun x => ?_
  cases x <;> simp [Part.same, State.cond]
  all_goals
    rename_i q
    by_cases e : q = p
    · subst e
      simp only [if_true]
      first | exact .imp id (fun g => g _) h1 | exact .imp id (fun g => g _) h2 | exact .imp id (fun g => g _) h3 | exact .imp id (fun g => g _) h4
    · simp [e]

/-- A port controller's record, part by part. -/
theorem Only.onCtl {p : PortId} {f : PortCtl → PortCtl} (h : Only A s t)
    (h1 : A (.condition p) ∨ ∀ x, (f x).cond = x.cond ∧ (f x).cause = x.cause ∧ (f x).fault = x.fault
      ∧ (f x).identity = x.identity ∧ (f x).mismatch = x.mismatch)
    (h2 : A (.waits p) ∨ ∀ x, (f x).waits = x.waits ∧ (f x).response = x.response)
    (h3 : A (.timers p) ∨ ∀ x, (f x).silence = x.silence ∧ (f x).clearSpacing = x.clearSpacing)
    (h4 : A (.check p) ∨ ∀ x, (f x).check = x.check) : Only A s (onCtl p f t) := by
  refine h.trans fun x => ?_
  cases x <;> simp [Part.same, State.cond]
  all_goals
    rename_i q
    by_cases e : q = p
    · subst e
      simp only [if_true]
      first | exact .imp id (fun g => g _) h1 | exact .imp id (fun g => g _) h2 | exact .imp id (fun g => g _) h3 | exact .imp id (fun g => g _) h4
    · simp [e]

/-- A power record, part by part. -/
theorem Only.onPower {p : PortId} {f : Power → Power} (h : Only A s t)
    (h1 : A (.limits p) ∨ ∀ x, (f x).floor = x.floor ∧ (f x).ceiling = x.ceiling)
    (h2 : A (.votes p) ∨ ∀ x, (f x).votes = x.votes)
    (h3 : A (.level p) ∨ ∀ x, (f x).target = x.target ∧ (f x).reached = x.reached
      ∧ (f x).moving = x.moving) : Only A s (onPower p f t) := by
  refine h.trans fun x => ?_
  cases x <;> simp [Part.same, State.cond]
  all_goals
    rename_i q
    by_cases e : q = p
    · subst e
      simp only [if_true]
      first | exact .imp id (fun g => g _) h1 | exact .imp id (fun g => g _) h2 | exact .imp id (fun g => g _) h3
    · simp [e]

/-- A device link's record, part by part. -/
theorem Only.onWire {p : PortId} {f : DeviceWire → DeviceWire} (h : Only A s t)
    (h1 : A (.commands p) ∨ ∀ x, (f x).commands = x.commands)
    (h2 : A (.deviceTransmitter p) ∨ ∀ x, (f x).sending = x.sending)
    (h3 : A (.deviceReceiver p) ∨ ∀ x, (f x).rx = x.rx) : Only A s (onWire p f t) := by
  refine h.trans fun x => ?_
  cases x <;> simp [Part.same, State.cond]
  all_goals
    rename_i q
    by_cases e : q = p
    · subst e
      simp only [if_true]
      first | exact .imp id (fun g => g _) h1 | exact .imp id (fun g => g _) h2 | exact .imp id (fun g => g _) h3
    · simp [e]

/-- A link's record, part by part. -/
theorem Only.onLink {l : LinkId} {f : LinkUnit → LinkUnit} (h : Only A s t)
    (h1 : A (.unit l) ∨ ∀ x, (f x).up = x.up ∧ (f x).silence = x.silence
      ∧ (f x).outstanding = x.outstanding ∧ (f x).rx = x.rx)
    (h2 : A (.overrun l) ∨ ∀ x, (f x).overrun = x.overrun)
    (h3 : A (.slot l) ∨ ∀ x, (f x).reply = x.reply)
    (h4 : A (.queue l) ∨ ∀ x, (f x).queue = x.queue ∧ (f x).gap = x.gap)
    (h5 : A (.transmitter l) ∨ ∀ x, (f x).turn = x.turn ∧ (f x).lastPort = x.lastPort
      ∧ (f x).sending = x.sending) : Only A s (onLink l f t) := by
  refine h.trans fun x => ?_
  cases x <;> simp [Part.same, State.cond]
  all_goals
    rename_i q
    by_cases e : q = l
    · subst e
      simp only [if_true]
      first | exact .imp id (fun g => g _) h1 | exact .imp id (fun g => g _) h2 | exact .imp id (fun g => g _) h3 | exact .imp id (fun g => g _) h4 | exact .imp id (fun g => g _) h5
    · simp [e]

theorem Only.onLoader {f : Loader → Loader} (hA : A .loader) (h : Only A s t) :
    Only A s (onLoader f t) := by
  refine h.trans fun x => ?_
  cases x <;> simp_all [Part.same, State.cond]

end Sys2Proof.Safety
end

