-- ==== Sys2Proof/Laws/Ops.lean ====
section
/-! SUPPORT. For each shared operation, once, the parts of the state that it may change. The conditions say which
parts the frame allows; `Port` gathers what work on one port may change, `News` what handing notices may. -/

namespace Sys2Proof.Safety

open Sys2Proof.Machine

variable {A : Part → Prop} {s t : State}

/-- The frame allows notices to any link. -/
structure News (A : Part → Prop) : Prop where
  queue : ∀ l, A (.queue l)
  contacts : ∀ p, A (.contacts p)

/-- The frame allows the work that the blocks do on a port between them. -/
structure Port (A : Part → Prop) (p : PortId) : Prop extends News A where
  claims : A (.claims p)
  takeover : A (.takeover p)
  printer : A (.printer p)
  scanner : A (.scanner p)
  stream : A (.stream p)
  waits : A (.waits p)
  commands : A (.commands p)

/-! ### Delivery Queues and replies -/

theorem Only.orphan {p : PortId} {id : Fin 16} (hc : A (.contacts p)) (h : Only A s t) :
    Only A s (orphan p id t) :=
  h.onPanel (.inr fun _ => ⟨rfl, rfl, rfl⟩) (.inr fun _ => rfl) (.inr fun _ => rfl) (.inl hc)

theorem Only.discarded {l : LinkId} {r : TouchRecord} (hc : ∀ p, A (.contacts p)) (h : Only A s t) :
    Only A s (discarded l r t) :=
  .ite (fun _ => h.onPanel (.inr fun _ => ⟨rfl, rfl, rfl⟩) (.inr fun _ => rfl) (.inr fun _ => rfl)
    (.inl (hc _))) fun _ => h

/-- A change of a link's queue and gap flag. -/
theorem Only.onQueue {l : LinkId} {f : LinkUnit → LinkUnit} (hq : A (.queue l)) (h : Only A s t)
    (hf : ∀ x, ∃ q g, f x = { x with queue := q, gap := g }) : Only A s (Machine.onLink l f t) := by
  refine h.onLink (.inr fun x => ?_) (.inr fun x => ?_) (.inr fun x => ?_) (.inl hq) (.inr fun x => ?_)
  all_goals obtain ⟨q, g, e⟩ := hf x; simp [e]

theorem Only.placeItem {l : LinkId} {b : NoticeBody} (hq : A (.queue l)) (hc : ∀ p, A (.contacts p))
    (h : Only A s t) : Only A s (placeItem l b t) := by
  unfold Machine.placeItem
  simp only
  refine .ite (fun _ => h.onQueue hq fun _ => ⟨_, _, rfl⟩) fun _ => ?_
  split
  · exact (h.onQueue hq fun _ => ⟨_, _, rfl⟩).discarded hc
  · exact h.onQueue hq fun _ => ⟨_, _, rfl⟩

theorem Only.deliver {l : LinkId} {b : NoticeBody} (hq : A (.queue l)) (hc : ∀ p, A (.contacts p))
    (h : Only A s t) : Only A s (deliver l b t) :=
  .ite (fun _ => .ite (fun _ => h.onQueue hq fun _ => ⟨_, _, rfl⟩) fun _ => h.placeItem hq hc) fun _ => h

theorem Only.deliverTouch {l : LinkId} {r : TouchRecord} (hq : A (.queue l)) (hc : ∀ p, A (.contacts p))
    (h : Only A s t) : Only A s (deliverTouch l r t).1 := by
  unfold Machine.deliverTouch
  simp only
  split
  · exact h.onQueue hq fun _ => ⟨_, _, rfl⟩
  · split
    · exact h.onQueue hq fun _ => ⟨_, _, rfl⟩
    · split
      · split
        · exact (h.onQueue hq fun _ => ⟨_, _, rfl⟩).discarded hc
        · exact h.onQueue hq fun _ => ⟨_, _, rfl⟩
      · exact h.onQueue hq fun _ => ⟨_, _, rfl⟩

theorem Only.news {l : LinkId} {b : NoticeBody} (hn : News A) (h : Only A s t) :
    Only A s (Machine.deliver l b t) := h.deliver (hn.queue l) hn.contacts

theorem Only.reply {l : LinkId} {kind : Byte} {code : ResultCode} {fields : ReplyFields}
    (hs : A (.slot l)) (h : Only A s t) : Only A s (reply l kind code fields t) :=
  h.onLink (.inr fun _ => ⟨rfl, rfl, rfl, rfl⟩) (.inr fun _ => rfl) (.inl hs) (.inr fun _ => ⟨rfl, rfl⟩)
    (.inr fun _ => ⟨rfl, rfl, rfl⟩)

/-! ### Waits, commands and deadlines -/

/-- A change of a port's waits and response timer. -/
theorem Only.onWaits {p : PortId} {f : PortCtl → PortCtl} (hw : A (.waits p)) (h : Only A s t)
    (hf : ∀ x, ∃ w r, f x = { x with waits := w, response := r }) : Only A s (Machine.onCtl p f t) := by
  refine h.onCtl (.inr fun x => ?_) (.inl hw) (.inr fun x => ?_) (.inr fun x => ?_)
  all_goals obtain ⟨q, g, e⟩ := hf x; simp [e]

theorem Only.beginWait {p : PortId} {w : Wait} (hw : A (.waits p)) (h : Only A s t) :
    Only A s (beginWait p w t) :=
  .ite (fun _ => h) fun _ => h.onWaits hw fun _ => ⟨_, _, rfl⟩

theorem Only.endWait {p : PortId} {w : Wait} (hw : A (.waits p)) (h : Only A s t) :
    Only A s (endWait p w t) := h.onWaits hw fun _ => ⟨_, _, rfl⟩

theorem Only.sendCommand {p : PortId} {c : DeviceCommand} (hk : A (.commands p)) (hw : A (.waits p))
    (h : Only A s t) : Only A s (sendCommand p c t) := by
  have g := h.onWire (p := p) (f := fun w => { w with commands := w.commands ++ [c] })
    (.inl hk) (.inr fun _ => rfl) (.inr fun _ => rfl)
  unfold Machine.sendCommand
  simp only
  split
  · exact g.beginWait hw
  · exact g

theorem Only.signOfLife {p : PortId} {ws : List Wait} (ht : A (.timers p)) (hw : A (.waits p))
    (h : Only A s t) : Only A s (signOfLife p ws t) :=
  h.onCtl (.inr fun _ => ⟨rfl, rfl, rfl, rfl, rfl⟩) (.inl hw) (.inl ht) (.inr fun _ => rfl)

theorem Only.rearm {p : PortId} (hc : A (.claims p)) (h : Only A s t) : Only A s (rearm p t) :=
  h.onClaims hc

theorem Only.activity {p : PortId} {k : KioskId} (hc : A (.claims p)) (h : Only A s t) :
    Only A s (activity p k t) := .ite (fun _ => h.rearm hc) fun _ => h

/-! ### Streams and the job in flight -/

theorem Only.onOpenStream {p : PortId} {b : Bool} {f : Stream → Stream} (hs : A (.stream p))
    (h : Only A s t) : Only A s (onOpenStream p b f t) := h.onStream hs

theorem Only.openStream {p : PortId} {d : Direction} {l : LinkId} {n : Nat} {a b : Bool}
    (hs : A (.stream p)) (h : Only A s t) : Only A s (openStream p d l n a b t) := h.onStream hs

theorem Only.closeStream {p : PortId} (hs : A (.stream p)) (h : Only A s t) :
    Only A s (closeStream p t) := h.onStream hs

theorem Only.syncJobWait {p : PortId} {on : Bool} (hw : A (.waits p)) (h : Only A s t) :
    Only A s (syncJobWait p on t) :=
  .ite (fun _ => .ite (fun _ => h) fun _ => h.beginWait hw) fun _ => h.endWait hw

theorem Only.setInflight {p : PortId} {j : Job} (hp : A (.printer p)) (hs : A (.stream p))
    (hw : A (.waits p)) (h : Only A s t) : Only A s (setInflight p j t) :=
  ((h.onPrinter hp).onOpenStream hs).syncJobWait hw

/-! ### Contacts -/

theorem Only.handSynthetic {p : PortId} {c : Contact} (hn : News A) (h : Only A s t) :
    Only A s (handSynthetic p c t) := by
  unfold Machine.handSynthetic
  split
  · exact h
  · exact .ite (fun _ => h.deliverTouch (hn.queue _) hn.contacts) fun _ => h

theorem Only.cutContacts {p : PortId} {pick : Contact → Bool} (hn : News A) (h : Only A s t) :
    Only A s (cutContacts p pick t) := by
  unfold Machine.cutContacts
  refine h.foldl _ fun id u hu => ?_
  unfold Machine.cutContact
  split
  · exact .ite (fun _ => (hu.handSynthetic hn).orphan (hn.contacts p)) fun _ => hu
  · exact hu

theorem Only.holderChanged {p : PortId} (hn : News A) (h : Only A s t) : Only A s (holderChanged p t) :=
  h.cutContacts hn

theorem Only.clearContacts {p : PortId} (hn : News A) (h : Only A s t) : Only A s (clearContacts p t) :=
  (h.cutContacts hn).onPanel (.inr fun _ => ⟨rfl, rfl, rfl⟩) (.inr fun _ => rfl) (.inr fun _ => rfl)
    (.inl (hn.contacts p))

theorem Only.orphanLink {l : LinkId} (hc : ∀ p, A (.contacts p)) (h : Only A s t) :
    Only A s (orphanLink l t) :=
  h.forPorts fun p _ hu => hu.onPanel (.inr fun _ => ⟨rfl, rfl, rfl⟩) (.inr fun _ => rfl)
    (.inr fun _ => rfl) (.inl (hc p))

theorem Only.cutKiosk {k : KioskId} (hn : News A) (h : Only A s t) : Only A s (cutKiosk k t) :=
  h.forPorts fun _ _ hu => hu.cutContacts hn

/-! ### The Claim Arbiter, the Print Queue Manager and the Scan Controller -/

theorem Only.holdJob {p : PortId} (hp : Port A p) (h : Only A s t) : Only A s (holdJob p t) := by
  unfold Machine.holdJob
  split
  · exact h
  · refine .ite (fun _ => h) fun _ => ?_
    refine .news hp.toNews (.setInflight hp.printer hp.stream hp.waits ?_)
    exact .ite (fun _ => h) fun _ => h.sendCommand hp.commands hp.waits

theorem Only.setTake {p : PortId} {x : TakeState} (ht : A (.takeover p)) (hq : A (.queue .staff))
    (hc : ∀ p, A (.contacts p)) (h : Only A s t) : Only A s (setTake p x t) :=
  (h.onTake ht).deliver hq hc

theorem Only.setSuspended {p : PortId} {v : Bool} (hc : A (.claims p)) (h : Only A s t) :
    Only A s (setSuspended p v t) := (h.onClaims hc).rearm hc

theorem Only.enterStaffHold {p : PortId} (hp : Port A p) (h : Only A s t) :
    Only A s (enterStaffHold p t) := by
  unfold Machine.enterStaffHold
  refine .news hp.toNews (.ite (fun _ => .holdJob hp ?_) fun _ => ?_)
  all_goals
    split
    · refine .news hp.toNews (.ite (fun _ => .holderChanged hp.toNews ?_) fun _ => ?_)
      all_goals exact (h.onTake hp.takeover).setSuspended hp.claims
    · refine .ite (fun _ => .holderChanged hp.toNews ?_) fun _ => ?_
      all_goals exact (h.onTake hp.takeover).setSuspended hp.claims

theorem Only.completeTake {p : PortId} {ws : List Waiting} (hp : Port A p) (h : Only A s t) :
    Only A s (completeTake p ws t) := by
  unfold Machine.completeTake
  split
  · exact .ite (fun _ => h.enterStaffHold hp) fun _ => h
  · exact h

theorem Only.grant {p : PortId} {k : KioskId} {b : Bool} (hc : A (.claims p)) (hn : News A)
    (h : Only A s t) : Only A s (grant p k b t) := by
  have g : Only A s (grantRecord p k t) := (h.onClaims hc).rearm hc
  have g2 : Only A s (if (grantRecord p k t).cls p = .panel then
      Machine.holderChanged p (grantRecord p k t) else grantRecord p k t) :=
    .ite (fun _ => g.holderChanged hn) fun _ => g
  have g3 : ∀ u, Only A s u → Only A s (if b = true then claimNews p k .holding u else u) := fun u hu =>
    .ite (fun _ => hu.news hn) fun _ => hu
  exact .ite (fun _ => (g3 _ g2).news hn) fun _ => g3 _ g2

theorem Only.promote {p : PortId} (hc : A (.claims p)) (hn : News A) (h : Only A s t) :
    Only A s (promote p t) := by
  unfold Machine.promote
  simp only
  split
  · exact .ite (fun _ => h.grant hc hn) fun _ => h
  · exact h

theorem Only.removeClaim {p : PortId} {k : KioskId} (hc : A (.claims p)) (h : Only A s t) :
    Only A s (removeClaim p k t) := h.onClaims hc

theorem Only.scanLeft {p : PortId} {l : LinkId} (hp : Port A p) (h : Only A s t) :
    Only A s (scanLeft p l t) := by
  unfold Machine.scanLeft
  refine .completeTake hp ?_
  split
  · refine .ite (fun _ => .ite (fun _ => ?_) fun _ => h.rearm hp.claims) fun _ => h
    exact .promote hp.claims hp.toNews (.news hp.toNews (h.removeClaim hp.claims))
  · exact h

theorem Only.giveResult {p : PortId} {x : Scan} (hn : News A) (h : Only A s t) :
    Only A s (giveResult p x t) := h.news hn

theorem Only.setScan {p : PortId} {o : Option Scan} (hs : A (.scanner p)) (hw : A (.waits p))
    (h : Only A s t) : Only A s (setScan p o t) :=
  .ite (fun _ => .ite (fun _ => h.onScanner hs) fun _ => (h.onScanner hs).beginWait hw)
    fun _ => (h.onScanner hs).endWait hw

theorem Only.leaveFlight {p : PortId} (hp : Port A p) (h : Only A s t) : Only A s (leaveFlight p t) := by
  unfold Machine.leaveFlight
  split
  · exact h
  · exact .scanLeft hp (.setScan hp.scanner hp.waits (h.closeStream hp.stream))

theorem Only.finishScan {p : PortId} {x : Scan} (hp : Port A p) (h : Only A s t) :
    Only A s (finishScan p x t) :=
  .leaveFlight hp (.giveResult hp.toNews (.setScan hp.scanner hp.waits h))

theorem Only.abortScan {p : PortId} {r : ScanReason} (hp : Port A p) (h : Only A s t) :
    Only A s (abortScan p r t) := by
  unfold Machine.abortScan
  split
  · exact h
  · refine .ite (fun _ => h) fun _ => ?_
    have g := fun x => Only.giveResult (p := p) (x := x) hp.toNews
      (.setScan (o := some x) hp.scanner hp.waits (h.closeStream hp.stream))
    simp only
    split
    · exact .leaveFlight hp (g _)
    · exact .sendCommand hp.commands hp.waits (g _)

theorem Only.endScanNow {p : PortId} {r : ScanReason} (hp : Port A p) (h : Only A s t) :
    Only A s (endScanNow p r t) := by
  unfold Machine.endScanNow
  split
  · exact h
  · exact .ite (fun _ => h.leaveFlight hp) fun _ => h.finishScan hp

theorem Only.grantEnded {p : PortId} {k : KioskId} (hp : Port A p) (h : Only A s t) :
    Only A s (grantEnded p k t) := by
  unfold Machine.grantEnded
  split
  · exact .ite (fun _ => h.abortScan hp) fun _ => h
  · exact h

theorem Only.endRecord {p : PortId} {k : KioskId} {r : Option EndReason} (hp : Port A p)
    (h : Only A s t) : Only A s (endRecord p k r t) := by
  have g := h.removeClaim (k := k) hp.claims
  unfold Machine.endRecord
  split
  · exact h
  · have g2 : ∀ c : Claim, Only A s
        (if c.role = .holder then
          match (Machine.removeClaim p k t).cls p with
          | .panel => Machine.holderChanged p (Machine.removeClaim p k t)
          | .scanner => Machine.grantEnded p k (Machine.removeClaim p k t)
          | _ => Machine.removeClaim p k t
        else Machine.removeClaim p k t) := fun c => by
      refine .ite (fun _ => ?_) fun _ => g
      split
      · exact g.holderChanged hp.toNews
      · exact g.grantEnded hp
      · exact g
    simp only
    split
    · exact .news hp.toNews (g2 _)
    · exact g2 _

theorem Only.endClaim {p : PortId} {k : KioskId} {r : Option EndReason} (hp : Port A p)
    (h : Only A s t) : Only A s (endClaim p k r t) := by
  unfold Machine.endClaim
  split
  · exact h
  · exact .ite (fun _ => .promote hp.claims hp.toNews (h.endRecord hp)) fun _ => h.endRecord hp

theorem Only.endWaiters {p : PortId} {r : EndReason} (hp : Port A p) (h : Only A s t) :
    Only A s (endWaiters p r t) := h.foldl _ fun _ _ hu => hu.endRecord hp

theorem Only.endAllClaims {p : PortId} {r : EndReason} (hp : Port A p) (h : Only A s t) :
    Only A s (endAllClaims p r t) := by
  unfold Machine.endAllClaims
  simp only
  split
  · exact .endClaim hp (h.endWaiters hp)
  · exact h.endWaiters hp

theorem Only.select {p : PortId} (hp : Port A p) (h : Only A s t) : Only A s (select p t) := by
  unfold Machine.select
  split
  · exact h
  · refine .ite (fun _ => .news hp.toNews ?_) fun _ => h
    exact .sendCommand hp.commands hp.waits
      (.setInflight hp.printer hp.stream hp.waits (h.onPrinter hp.printer))

theorem Only.endInflight {p : PortId} {j : Job} {e : JobEnd} (hp : Port A p) (h : Only A s t) :
    Only A s (endInflight p j e t) := by
  have g : ∀ f, Only A s (Machine.onPrinter p f (jobNews p j (.ended e) (Machine.endWait p .jobProgress
      (Machine.onPrinter p (fun x => { x with inflight := none }) (Machine.closeStream p t))))) := fun _ =>
    ((((h.closeStream hp.stream).onPrinter hp.printer).endWait hp.waits).news hp.toNews).onPrinter
      hp.printer
  exact .completeTake hp (.ite (fun _ => (g _).select hp) fun _ => g _)

theorem Only.endQueued {p : PortId} {j : Job} {e : JobEnd} (hp : A (.printer p)) (hn : News A)
    (h : Only A s t) : Only A s (endQueued p j e t) := .news hn (h.onPrinter hp)

theorem Only.abortJob {p : PortId} {c : AbortCause} (hp : Port A p) (h : Only A s t) :
    Only A s (abortJob p c t) := by
  unfold Machine.abortJob
  split
  · exact h
  · exact .ite (fun _ => h) fun _ => .closeStream hp.stream (.sendCommand hp.commands hp.waits
      (h.setInflight hp.printer hp.stream hp.waits))

theorem Only.endInflightNow {p : PortId} {r : FailReason} (hp : Port A p) (h : Only A s t) :
    Only A s (endInflightNow p r t) := by
  unfold Machine.endInflightNow
  split
  · exact h
  · exact h.endInflight hp

theorem Only.evaluateTake {p : PortId} (hp : Port A p) (h : Only A s t) :
    Only A s (evaluateTake p t) := by
  have pend : ∀ {w b u}, Only A s u → Only A s (pendTake p w b u) := fun hu =>
    hu.setTake hp.takeover (hp.queue _) hp.contacts
  have byClass : ∀ {u}, Only A s u → Only A s (takeByClass p u) := fun {u} hu => by
    unfold Machine.takeByClass
    split
    · exact .ite (fun _ => pend hu) fun _ => hu.enterStaffHold hp
    · split
      · exact hu.enterStaffHold hp
      · refine .ite (fun _ => pend hu) fun _ => .ite (fun _ => hu.enterStaffHold hp) fun _ => ?_
        exact pend (.sendCommand hp.commands hp.waits (hu.setInflight hp.printer hp.stream hp.waits))
    · exact hu.enterStaffHold hp
    · exact hu.enterStaffHold hp
  unfold Machine.evaluateTake
  split
  · exact .ite (fun _ => byClass (h.onTake hp.takeover)) fun _ => pend h
  · exact byClass h

theorem Only.takePort {p : PortId} (hp : Port A p) (h : Only A s t) : Only A s (takePort p t) := by
  unfold Machine.takePort
  split
  · exact h.evaluateTake hp
  · exact h

end Sys2Proof.Safety
end

