-- ==== Sys2Proof/Laws/Events.lean ====
section
/-! SUPPORT. The parts of the state that a change of condition, the taking of a frame and the end of an event may
change. -/

namespace Sys2Proof.Safety

open Sys2Proof.Machine

variable {A : Part → Prop} {s t : State}

/-- The frame allows everything that a change of a port's condition may bring about. -/
structure Moves (A : Part → Prop) (p : PortId) : Prop extends Port A p where
  condition : A (.condition p)
  timers : A (.timers p)
  check : A (.check p)
  level : A (.level p)

/-! ### A change of condition -/

theorem Only.onLevel {p : PortId} {f : Power → Power} (hl : A (.level p)) (h : Only A s t)
    (hf : ∀ x, ∃ a b c, f x = { x with target := a, reached := b, moving := c }) :
    Only A s (Machine.onPower p f t) := by
  refine h.onPower (.inr fun x => ?_) (.inr fun x => ?_) (.inl hl)
  all_goals obtain ⟨a, b, c, e⟩ := hf x; simp [e]

theorem Only.setReached {p : PortId} {v : Option Level} (hp : Port A p) (hl : A (.level p))
    (h : Only A s t) : Only A s (setReached p v t) := by
  have g := h.onLevel (f := fun x => { x with reached := v }) hl fun x => ⟨_, _, _, rfl⟩
  have g2 : Only A s (if v = some .ready ∧ (t.power.get p).reached ≠ some .ready then
      Machine.select p (Machine.onPower p (fun x => { x with reached := v }) t)
      else Machine.onPower p (fun x => { x with reached := v }) t) :=
    .ite (fun _ => g.select hp) fun _ => g
  exact .ite (fun _ => g2.clearContacts hp.toNews) fun _ => g2

theorem Only.onCheckRecord {p : PortId} {f : PortCtl → PortCtl} (hc : A (.check p)) (h : Only A s t)
    (hf : ∀ x, ∃ c, f x = { x with check := c }) : Only A s (Machine.onCtl p f t) := by
  refine h.onCtl (.inr fun x => ?_) (.inr fun x => ?_) (.inr fun x => ?_) (.inl hc)
  all_goals obtain ⟨c, e⟩ := hf x; simp [e]

theorem Only.endCheck {p : PortId} {st : CheckStatus} (hc : A (.check p)) (hn : News A)
    (h : Only A s t) : Only A s (endCheck p st t) :=
  .news hn (h.onCheckRecord hc fun _ => ⟨_, rfl⟩)

theorem Only.arbiterTakes {p : PortId} {b c : Condition} (hp : Port A p) (h : Only A s t) :
    Only A s (arbiterTakes p b c t) := by
  have g : Only A s (if c = .absent then Machine.endAllClaims p .deviceLost t else t) :=
    .ite (fun _ => h.endAllClaims hp) fun _ => h
  exact .ite (fun _ => g.promote hp.claims hp.toNews) fun _ => g

theorem Only.endQueue {p : PortId} {e : JobEnd} (hp : Port A p) (h : Only A s t) :
    Only A s (endQueue p e t) := h.foldl _ fun _ _ hu => hu.endQueued hp.printer hp.toNews

theorem Only.printerTakes {p : PortId} {c : Condition} (hp : Port A p) (h : Only A s t) :
    Only A s (printerTakes p c t) := by
  unfold Machine.printerTakes
  split
  · exact (h.abortJob hp).endInflightNow hp
  · exact (h.endInflightNow hp).endQueue hp
  · exact h.endInflightNow hp
  · exact h.select hp
  · exact h

theorem Only.documentGone {p : PortId} (hp : Port A p) (h : Only A s t) :
    Only A s (documentGone p t) := by
  unfold Machine.documentGone
  refine .ite (fun _ => ?_) fun _ => h
  simp only
  split
  · exact .news hp.toNews (h.onScanner hp.scanner)
  · exact h.onScanner hp.scanner

theorem Only.scanSilent {p : PortId} (hp : Port A p) (h : Only A s t) : Only A s (scanSilent p t) := by
  unfold Machine.scanSilent
  split
  · exact h
  · exact .endScanNow hp (.ite (fun _ => h) fun _ => h.sendCommand hp.commands hp.waits)

theorem Only.scannerTakes {p : PortId} {c : Condition} {k : PortCause} (hp : Port A p)
    (h : Only A s t) : Only A s (scannerTakes p c k t) := by
  unfold Machine.scannerTakes
  refine .ite (fun _ => (h.endScanNow hp).documentGone hp) fun _ => ?_
  split
  · exact h.scanSilent hp
  · exact (h.endScanNow hp).documentGone hp
  · exact (h.endScanNow hp).documentGone hp
  · exact h

theorem Only.transitionLost {p : PortId} (hp : Port A p) (hl : A (.level p)) (h : Only A s t) :
    Only A s (transitionLost p t) :=
  .ite (fun _ => .setReached hp hl (h.onLevel hl fun _ => ⟨_, _, _, rfl⟩)) fun _ => h

theorem Only.governorTakes {p : PortId} {c : Condition} (hp : Port A p) (hl : A (.level p))
    (h : Only A s t) : Only A s (governorTakes p c t) := by
  unfold Machine.governorTakes
  split
  · exact h.transitionLost hp hl
  · exact h.transitionLost hp hl
  · exact .setReached hp hl (h.onLevel hl fun _ => ⟨_, _, _, rfl⟩)
  · exact h

theorem Only.blocksTake {p : PortId} {b c : Condition} {k : PortCause} (hp : Port A p)
    (hl : A (.level p)) (h : Only A s t) : Only A s (blocksTake p b c k t) := by
  have g := ((h.arbiterTakes (b := b) (c := c) hp).printerTakes (c := c) hp).scannerTakes
    (c := c) (k := k) hp
  exact .governorTakes hp hl (.ite (fun _ => g.clearContacts hp.toNews) fun _ => g)

theorem Only.removeCommands {p : PortId} (hk : A (.commands p)) (h : Only A s t) :
    Only A s (removeCommands p t) := h.onWire (.inl hk) (.inr fun _ => rfl) (.inr fun _ => rfl)

theorem Only.onController {p : PortId} {f : PortCtl → PortCtl} (hp : Moves A p) (h : Only A s t) :
    Only A s (Machine.onCtl p f t) :=
  h.onCtl (.inl hp.condition) (.inl hp.waits) (.inl hp.timers) (.inl hp.check)

theorem Only.changeCondition {p : PortId} {c : Condition} {k : PortCause} {r : Option Byte}
    (hp : Moves A p) (h : Only A s t) : Only A s (changeCondition p c k r t) := by
  have g := h.onController (f := movedCtl t.tick c k) hp
  have g2 : Only A s (if c = .absent ∨ c = .resetting then
      Machine.removeCommands p (Machine.onCtl p (movedCtl t.tick c k) t)
      else Machine.onCtl p (movedCtl t.tick c k) t) :=
    .ite (fun _ => g.removeCommands hp.commands) fun _ => g
  refine .blocksTake hp.toPort hp.level (.news hp.toNews (.ite (fun _ => ?_) fun _ => g2))
  exact g2.endCheck hp.check hp.toNews

theorem Only.identify {p : PortId} {k : PortCause} (hp : Moves A p) (h : Only A s t) :
    Only A s (identify p k t) := (h.changeCondition hp).sendCommand hp.commands hp.waits

theorem Only.becomeAbsent {p : PortId} {k : PortCause} {r : Option Byte} (hp : Moves A p)
    (h : Only A s t) : Only A s (becomeAbsent p k r t) := h.changeCondition hp

/-! ### The end of an event -/

theorem Only.testQuiet (hh : A .hall) (hn : News A) (h : Only A s t) : Only A s (testQuiet t) := by
  refine .ite (fun _ => .news hn (h.trans fun x => ?_)) fun _ => h
  cases x <;> simp [Part.same, State.link, State.cond, hh]

theorem Only.hallFalls {b : State} (hh : A .hall) (hn : News A) (h : Only A s t) :
    Only A s (hallFalls b t) :=
  .ite (fun _ => .testQuiet hh hn (h.news hn)) fun _ => h

theorem Only.retarget {p : PortId} (hl : A (.level p)) (hk : A (.commands p)) (hw : A (.waits p))
    (h : Only A s t) : Only A s (retarget p t) := by
  have g := h.onLevel (f := fun x => { x with target := t.targetOf p }) hl fun _ => ⟨_, _, _, rfl⟩
  exact .ite (fun _ => .sendCommand hk hw (g.onLevel hl fun _ => ⟨_, _, _, rfl⟩)) fun _ => g

/-- The frame allows what closes an event. -/
structure Closes (A : Part → Prop) : Prop extends News A where
  hall : A .hall
  level : ∀ p, A (.level p)
  commands : ∀ p, A (.commands p)
  waits : ∀ p, A (.waits p)

theorem Only.closeEvent {b : State} (hc : Closes A) (h : Only A s t) : Only A s (closeEvent b t) := by
  unfold Machine.closeEvent Machine.powerPass
  exact (h.hallFalls hc.hall hc.toNews).forPorts fun p _ hu =>
    hu.retarget (hc.level p) (hc.commands p) (hc.waits p)

end Sys2Proof.Safety
end

