-- ==== Sys2Proof/Laws/Delivery.lean ====
section
/-! SUPPORT. What handing a notice to a Delivery Queue achieves, and what it leaves; what the falls of the four
counts make of a CLOSING hall. -/

namespace Sys2Proof.Safety

open Sys2Proof.Machine

variable {s t : State}

/-- From a frame that does not allow a part: the part is the same. -/
theorem Only.same {A : Part → Prop} (h : Only A s t) {x : Part} (hx : ¬A x) : x.same s t :=
  (h x).resolve_left hx

/-- A notice handed to a link leaves everything but that link's queue and contacts. -/
theorem only_deliver (l : LinkId) (b : NoticeBody) (s : State) :
    Only (told (· = l)) s (deliver l b s) :=
  (Only.refl _ s).deliver (.inl ⟨l, rfl, rfl⟩) fun p => .inr ⟨p, rfl⟩

theorem mem_replaceKeyed {b : NoticeBody} {q : List Item} (h : hasKey b q = true) :
    ∃ i ∈ replaceKeyed b q, i.body = b := by
  unfold hasKey at h
  obtain ⟨i, hi, hk⟩ := List.any_eq_true.1 h
  simp only [Bool.and_eq_true, beq_iff_eq] at hk
  exact ⟨⟨b, i.lost⟩, List.mem_map.2 ⟨i, hi, by simp [hk]⟩, rfl⟩

theorem discarded_link (l m : LinkId) (r : TouchRecord) (s : State) :
    (discarded l r s).link m = s.link m := by
  unfold discarded; split <;> simp

/-- A notice that was handed to a link that is UP stands in its queue (R136, R138, R142). -/
theorem queued_deliver (l : LinkId) (b : NoticeBody) (s : State) : Queued l b (deliver l b s) := by
  intro hup
  have hu : (s.link l).up = true := by
    have := ((only_deliver l b s).same (x := .unit l) (by simp [told])).1
    rw [← this]; exact hup
  unfold deliver
  rw [if_pos hu]
  split
  · rename_i hk
    simpa using mem_replaceKeyed hk
  · unfold placeItem
    simp only
    split
    · simp
    · split
      · simp [discarded_link]
      · simp

/-- A notice to another link takes nothing out of a link's queue. -/
theorem Queued.deliver_other {l m : LinkId} {b c : NoticeBody} (h : Queued l b s) (hlm : l ≠ m) :
    Queued l b (deliver m c s) := by
  have hq := (only_deliver m c s).same (x := .queue l) (by simp [told, hlm])
  have hu := (only_deliver m c s).same (x := .unit l) (by simp [told])
  intro hup
  rw [hq.1]
  exact h (hu.1 ▸ hup)

/-- What leaves a link's state and queue leaves what is queued there. -/
theorem Queued.only {A : Part → Prop} {l : LinkId} {b : NoticeBody} (h : Queued l b s)
    (g : Only A s t) (hu : ¬A (.unit l)) (hq : ¬A (.queue l)) : Queued l b t := by
  intro hup
  rw [(g.same hq).1]
  exact h ((g.same hu).1 ▸ hup)

/-! ### The falls of the four counts (R36, R40) -/

/-- What leaves the claims, jobs, scans and checks of every port leaves the four counts. -/
theorem Only.counts {A : Part → Prop} (h : Only A s t) (hc : ∀ p, ¬A (.claims p))
    (hj : ∀ p, ¬A (.printer p)) (hs : ∀ p, ¬A (.scanner p)) (hk : ∀ p, ¬A (.check p)) :
    t.counts = s.counts := by
  have ec : ∀ p, t.claims.get p = s.claims.get p := fun p => h.same (hc p)
  have ej : ∀ p, t.printers.get p = s.printers.get p := fun p => h.same (hj p)
  have es : ∀ p, t.scanners.get p = s.scanners.get p := fun p => h.same (hs p)
  have ek : ∀ p, (t.ctls.get p).check = (s.ctls.get p).check := fun p => h.same (hk p)
  have hscan : t.kioskScan = s.kioskScan := funext fun p => by simp only [State.kioskScan, es]
  have hcheck : t.checkRunning = s.checkRunning := funext fun p => by simp only [State.checkRunning, ek]
  simp only [State.counts, State.claimCount, State.jobCount, ec, ej, hscan, hcheck]

@[simp] theorem hallNews_counts (s : State) : (hallNews s).counts = s.counts :=
  (only_deliver _ _ s).counts (by simp [told]) (by simp [told]) (by simp [told]) (by simp [told])

@[simp] theorem hallNews_hall (s : State) : (hallNews s).hall = s.hall :=
  (only_deliver _ _ s).same (x := .hall) (by simp [told])

/-- An event in which no count fell leaves the hall and its notices. -/
theorem hallFalls_of_not_fell {b : State} (h : someFell b.counts s.counts = false) : hallFalls b s = s := by
  simp [hallFalls, h]

/-- Compared with itself no count has fallen. -/
@[simp] theorem hallFalls_self (s : State) : hallFalls s s = s :=
  hallFalls_of_not_fell (by simp [someFell])

theorem testQuiet_hall (s : State) :
    (testQuiet s).hall = if s.hall = .closing ∧ s.quietCondition = true then .quiet else s.hall := by
  unfold testQuiet
  split <;> simp

@[simp] theorem testQuiet_counts (s : State) : (testQuiet s).counts = s.counts := by
  unfold testQuiet
  split
  · rw [hallNews_counts]; rfl
  · rfl

@[simp] theorem hallFalls_counts (b s : State) : (hallFalls b s).counts = s.counts := by
  unfold hallFalls
  split <;> simp

/-- The hall after an event: QUIET when a count of a CLOSING hall fell in it and all four are 0. -/
theorem hallFalls_hall (b s : State) : (hallFalls b s).hall =
    if b.hall = .closing ∧ s.hall = .closing ∧ someFell b.counts s.counts = true ∧ s.quietCondition = true
    then .quiet else s.hall := by
  unfold hallFalls
  by_cases h : b.hall = .closing ∧ s.hall = .closing ∧ someFell b.counts s.counts = true
  · obtain ⟨hb, hs, hf⟩ := h
    rw [if_pos ⟨hb, hs, hf⟩, testQuiet_hall]
    simp [hb, hs, hf, State.quietCondition]
  · rw [if_neg h, if_neg fun g => h ⟨g.1, g.2.1, g.2.2.1⟩]

theorem queued_hallNews (s : State) : Queued .staff (.hallState s.hall s.counts) (hallNews s) :=
  queued_deliver _ _ s

/-- The test of the QUIET condition leaves the staff queue with the hall and the counts as they stand. -/
theorem queued_testQuiet (h : Queued .staff (.hallState s.hall s.counts) s) :
    Queued .staff (.hallState (testQuiet s).hall s.counts) (testQuiet s) := by
  unfold testQuiet
  split
  · rw [hallNews_hall]
    exact queued_hallNews { s with hall := .quiet }
  · exact h

/-- After an event in which a count of a CLOSING hall fell the staff queue holds a HALL_STATE with the hall and
the counts as the event left them. -/
theorem queued_hallFalls {b : State} (hb : b.hall = .closing) (hs : s.hall = .closing)
    (hf : someFell b.counts s.counts = true) :
    Queued .staff (.hallState (hallFalls b s).hall s.counts) (hallFalls b s) := by
  have g := queued_testQuiet (s := hallNews s) (by simpa using queued_hallNews s)
  have e : hallFalls b s = testQuiet (hallNews s) := if_pos ⟨hb, hs, hf⟩
  simpa [e] using g

end Sys2Proof.Safety
end

