-- ==== Sys2Proof/Laws/Requests.lean ====
section
/-! SUPPORT. How a request reaches its owner: on a link that listens, with the common checks passed, the link unit
takes the request and the owner works on the state that this leaves. -/

namespace Sys2Proof.Safety

open Sys2Proof.Machine

variable {s t : State}

theorem linkTakes_eq (l : LinkId) (s : State) :
    onLink l (fun u => { u with outstanding := true }) (reload l (received l s)) = linkTakes l s := by
  cases l <;> simp [linkTakes, reload, received, onLink, Table.modify, Table.put, Table.get]

/-- A request on a link that listens reaches its checks. -/
theorem request_listens {l : LinkId} (f : State → State) (h : Listens l s) :
    request l f s = f (linkTakes l s) := by
  obtain ⟨h1, h2, h3⟩ := h
  simp [request, linkFrame, stopAndWait, h1, h2, h3, reload, received, ← linkTakes_eq]

@[simp] theorem linkTakes_tick (l : LinkId) (s : State) : (linkTakes l s).tick = s.tick := by
  simp [linkTakes]
@[simp] theorem linkTakes_claims (l : LinkId) (s : State) : (linkTakes l s).claims = s.claims := by
  simp [linkTakes]
@[simp] theorem linkTakes_takes (l : LinkId) (s : State) : (linkTakes l s).takes = s.takes := by
  simp [linkTakes]
@[simp] theorem linkTakes_hall (l : LinkId) (s : State) : (linkTakes l s).hall = s.hall := by
  simp [linkTakes]
@[simp] theorem linkTakes_printers (l : LinkId) (s : State) : (linkTakes l s).printers = s.printers := by
  simp [linkTakes]
@[simp] theorem linkTakes_nextJob (l : LinkId) (s : State) : (linkTakes l s).nextJob = s.nextJob := by
  simp [linkTakes]
@[simp] theorem linkTakes_scanners (l : LinkId) (s : State) : (linkTakes l s).scanners = s.scanners := by
  simp [linkTakes]
@[simp] theorem linkTakes_panels (l : LinkId) (s : State) : (linkTakes l s).panels = s.panels := by
  simp [linkTakes]
@[simp] theorem linkTakes_streams (l : LinkId) (s : State) : (linkTakes l s).streams = s.streams := by
  simp [linkTakes]
@[simp] theorem linkTakes_profiles (l : LinkId) (s : State) : (linkTakes l s).profiles = s.profiles := by
  simp [linkTakes]
@[simp] theorem linkTakes_configs (l : LinkId) (s : State) : (linkTakes l s).configs = s.configs := by
  simp [linkTakes]
@[simp] theorem linkTakes_ctls (l : LinkId) (s : State) : (linkTakes l s).ctls = s.ctls := by
  simp [linkTakes]
@[simp] theorem linkTakes_power (l : LinkId) (s : State) : (linkTakes l s).power = s.power := by
  simp [linkTakes]
@[simp] theorem linkTakes_wires (l : LinkId) (s : State) : (linkTakes l s).wires = s.wires := by
  simp [linkTakes]
@[simp] theorem linkTakes_loader (l : LinkId) (s : State) : (linkTakes l s).loader = s.loader := by
  simp [linkTakes]
@[simp] theorem linkTakes_cls (l : LinkId) (s : State) (p : PortId) :
    (linkTakes l s).cls p = s.cls p := by simp [linkTakes]
@[simp] theorem linkTakes_cond (l : LinkId) (s : State) (p : PortId) :
    (linkTakes l s).cond p = s.cond p := by simp [linkTakes]
@[simp] theorem linkTakes_holder (l : LinkId) (s : State) (p : PortId) :
    (linkTakes l s).holder p = s.holder p := by simp [linkTakes]

theorem linkTakes_link (l m : LinkId) (s : State) : (linkTakes l s).link m =
    if m = l then { s.link l with rx := [], silence := some (after s.tick silenceTicks),
                                  outstanding := true }
    else s.link m := by
  unfold linkTakes
  simp only [onLink_link]
  split
  · subst_vars; rfl
  · rfl

/-- Taking a request changes the link unit only. -/
theorem only_linkTakes {A : Part → Prop} (l : LinkId) (hu : A (.unit l)) (s : State) :
    Only A s (linkTakes l s) :=
  (Only.refl A s).onLink (.inl hu) (.inr fun _ => rfl) (.inr fun _ => rfl) (.inr fun _ => ⟨rfl, rfl⟩)
    (.inr fun _ => ⟨rfl, rfl, rfl⟩)

/-- A kiosk's request for a port passes the common checks (R178). -/
theorem kioskPortRequest_passes {α : Type} {k : KioskId} {p : PortId} {suits : PortClass → Bool} {x : α}
    {port : α → Byte} (kind : Byte) (owner : α → PortId → State → State) (hp : portOf (port x) = some p)
    (h : Listens (.kiosk k) s) (hm : MayUse k p suits s) :
    kioskPortRequest k kind suits (.fields x) port owner s = owner x p (linkTakes (.kiosk k) s) := by
  obtain ⟨ha, hu, hr, hs⟩ := hm
  unfold kioskPortRequest kioskRequest
  rw [request_listens _ h]
  simp [admittedOnly, withBody, withKioskPort, hp, ha, hu, hr, hs]

/-- A kiosk's request that names no port passes the common checks (R178). -/
theorem kioskRequest_passes {α : Type} {k : KioskId} {x : α} (kind : Byte) (owner : α → State → State)
    (h : Listens (.kiosk k) s) (ha : (s.profiles.get k).admitted = true) :
    kioskRequest k kind (.fields x) owner s = owner x (linkTakes (.kiosk k) s) := by
  unfold kioskRequest
  rw [request_listens _ h]
  simp [admittedOnly, withBody, ha]

/-- A staff request whose length is right reaches its owner (R179). -/
theorem staffRequest_passes {α : Type} {x : α} (kind : Byte) (owner : α → State → State)
    (h : Listens .staff s) :
    staffRequest kind (.fields x) owner s = owner x (linkTakes .staff s) := by
  unfold staffRequest
  rw [request_listens _ h]
  rfl

end Sys2Proof.Safety
end

