-- ==== Sys2Proof/Laws/Claims.lean ====
section
/-! SUPPORT. What the Claim Arbiter's operations make of a claim list. -/

namespace Sys2Proof.Safety

open Sys2Proof.Machine

variable {s t : State}

/-- Notices to any link, and nothing else. -/
def anyNews : Part → Prop := told fun _ => True

theorem news_anyNews : News anyNews := ⟨fun l => .inl ⟨l, rfl, trivial⟩, fun p => .inr ⟨p, rfl⟩⟩

/-! ### Lists -/

theorem holderOf_none {l : List Claim} : holderOf l = none ↔ ∀ c ∈ l, c.role = .waiter := by
  unfold holderOf
  rw [List.find?_eq_none]
  refine forall₂_congr fun c _ => ?_
  cases c.role <;> simp

theorem claimOf_none {l : List Claim} {k : KioskId} : claimOf l k = none ↔ ∀ c ∈ l, c.kiosk ≠ k := by
  unfold claimOf
  rw [List.find?_eq_none]
  simp

theorem claimOf_some {l : List Claim} {k : KioskId} {c : Claim} (h : claimOf l k = some c) :
    c ∈ l ∧ c.kiosk = k := by
  unfold claimOf at h
  exact ⟨List.mem_of_find?_eq_some h, by simpa using List.find?_some h⟩

theorem waitersOf_all {l : List Claim} (h : ∀ c ∈ l, c.role = .waiter) : waitersOf l = l := by
  unfold waitersOf
  exact List.filter_eq_self.2 fun c hc => by simp [h c hc]

theorem ListOrdered.tail_waiters {c : Claim} {l : List Claim} (h : ListOrdered (c :: l)) :
    ∀ d ∈ l, d.role = .waiter := h.1

theorem ListOrdered.tail_kiosks {c : Claim} {l : List Claim} (h : ListOrdered (c :: l)) :
    ∀ d ∈ l, d.kiosk ≠ c.kiosk := by
  have := h.2.2
  simp only [List.map_cons, List.nodup_cons, List.mem_map, not_exists, not_and] at this
  exact fun d hd e => this.1 d hd e

theorem ListOrdered.of_tail {c : Claim} {l : List Claim} (h : ListOrdered (c :: l)) : ListOrdered l := by
  obtain ⟨h1, h2, h3⟩ := h
  refine ⟨fun d hd => h1 d (List.mem_of_mem_tail hd), ?_, (List.nodup_cons.1 h3).2⟩
  have : (waitersOf l).Sublist (waitersOf (c :: l)) := (List.sublist_cons_self c l).filter _
  exact h2.sublist this

/-- Taking a kiosk's record out keeps a list ordered. -/
theorem ListOrdered.filter {l : List Claim} (h : ListOrdered l) (k : KioskId) :
    ListOrdered (l.filter fun d => d.kiosk != k) := by
  obtain ⟨h1, h2, h3⟩ := h
  refine ⟨?_, ?_, (h3.sublist (List.filter_sublist.map _))⟩
  · cases l with
    | nil => simp
    | cons a l =>
      intro c hc
      rw [List.filter_cons] at hc
      split at hc
      · exact h1 c (List.mem_of_mem_filter hc)
      · exact h1 c (List.mem_of_mem_filter (List.mem_of_mem_tail hc))
  · exact h2.sublist (List.filter_sublist.filter _)

/-- In an ordered list the holder stands at the head. -/
theorem ListOrdered.holder_head {l : List Claim} (h : ListOrdered l) {c : Claim} (hc : c ∈ l)
    (hr : c.role = .holder) : ∃ r, l = c :: r := by
  cases l with
  | nil => simp at hc
  | cons a r =>
    rcases List.mem_cons.1 hc with rfl | hc
    · exact ⟨r, rfl⟩
    · simp [h.1 c hc] at hr

/-- The holder's record out of an ordered list leaves its tail. -/
theorem ListOrdered.filter_holder {l : List Claim} {c : Claim} (h : ListOrdered (c :: l)) :
    ((c :: l).filter fun d => d.kiosk != c.kiosk) = l := by
  have := h.tail_kiosks
  simp only [List.filter_cons, bne_self_eq_false, Bool.false_eq_true, if_false]
  exact List.filter_eq_self.2 fun d hd => by simpa using this d hd

/-! ### Deadlines and grants -/

theorem frozen_eq (s : State) (p : PortId) (c : Claim) :
    s.frozen p c = (c.suspended || ownScan s p c.kiosk) := by
  unfold State.frozen ownScan
  cases (s.scanners.get p).scan <;> rfl

/-- A holder's record with its deadline as it stands from now on. -/
def rearmed (s : State) (p : PortId) (c : Claim) : Claim :=
  if c.role = .holder then { c with deadline := if c.suspended then none else armedFor s p c.kiosk } else c

theorem rearm_claims (p : PortId) (s : State) :
    (rearm p s).claims.get p = (s.claims.get p).map (rearmed s p) := by
  simp only [rearm, onClaims_claims, Table.get_modify, if_true]
  refine List.map_congr_left fun c _ => ?_
  unfold rearmed
  split
  · simp only [frozen_eq, armedFor, State.armedDeadline]
    cases c.suspended <;> cases ownScan s p c.kiosk <;> simp
  · rfl

theorem rearmed_waiters {l : List Claim} (h : ∀ c ∈ l, c.role = .waiter) : l.map (rearmed s p) = l := by
  conv_rhs => rw [← List.map_id l]
  exact List.map_congr_left fun c hc => by simp [rearmed, h c hc]

/-- After its record, a grant gives notices only. -/
theorem only_grant (p : PortId) (k : KioskId) (b : Bool) (s : State) :
    Only anyNews (grantRecord p k s) (grant p k b s) := by
  have n := news_anyNews
  have g : ∀ u, u = grantRecord p k s → Only anyNews (grantRecord p k s)
      (if u.cls p = .panel then holderChanged p u else u) := by
    rintro u rfl
    exact .ite (fun _ => .holderChanged n (.refl _ _)) fun _ => .refl _ _
  have g2 : ∀ u, Only anyNews (grantRecord p k s) u →
      Only anyNews (grantRecord p k s) (if b then claimNews p k .holding u else u) := fun u hu =>
    .ite (fun _ => hu.news n) fun _ => hu
  exact .ite (fun _ => (g2 _ (g _ rfl)).news n) fun _ => g2 _ (g _ rfl)

/-- A grant to the one record of a kiosk in a list without a holder (R7). -/
theorem grant_claims {p : PortId} {k : KioskId} {b : Bool} {c : Claim} {l : List Claim}
    (hl : s.claims.get p = c :: l) (hk : c.kiosk = k) (hw : ∀ d ∈ l, d.role = .waiter)
    (hn : ∀ d ∈ l, d.kiosk ≠ k) : (grant p k b s).claims.get p = granted s p c :: l := by
  have e : (grant p k b s).claims.get p = (grantRecord p k s).claims.get p :=
    (only_grant p k b s).same (x := .claims p) (by simp [anyNews, told])
  rw [e]
  unfold grantRecord
  rw [rearm_claims]
  have e : l.map (fun d => if d.kiosk = k then
      { d with role := .holder, grant := some s.tick, suspended := false } else d) = l := by
    conv_rhs => rw [← List.map_id l]
    exact List.map_congr_left fun d hd => by simp [hn d hd]
  simp [hl, hk, e, rearmed, granted, armedFor, ownScan]
  exact rearmed_waiters hw

/-- Promotion in a list of waiters (R18). -/
theorem promote_claims {p : PortId} {l : List Claim} (hl : s.claims.get p = l)
    (hw : ∀ d ∈ l, d.role = .waiter) (hn : (l.map (·.kiosk)).Nodup) :
    (promote p s).claims.get p = promoted s p (mayPromote s p) l := by
  unfold promote
  simp only [hl, holderOf_none.2 hw, waitersOf_all hw, Option.isNone_none]
  cases l with
  | nil => simpa [promoted] using hl
  | cons c l =>
    have hk : ∀ d ∈ l, d.kiosk ≠ c.kiosk := fun d hd e =>
      (List.nodup_cons.1 hn).1 (List.mem_map.2 ⟨d, hd, e⟩)
    simp only [List.head?_cons]
    by_cases h : (s.takes.get p).state = .free ∧ s.hall = .openHall ∧ s.cond p ≠ .checking
    · rw [if_pos h, grant_claims hl rfl (fun d hd => hw d (List.mem_cons_of_mem _ hd)) hk]
      simp [promoted, mayPromote, h.1, h.2.1, h.2.2]
    · rw [if_neg h, hl]
      have : mayPromote s p = false := by
        simp only [mayPromote, Bool.and_eq_false_imp, Bool.and_eq_true, beq_iff_eq, bne_eq_false_iff_eq]
        intro g
        by_contra hc
        exact h ⟨g.1, g.2, hc⟩
      simp [promoted, this]

/-- The end of a record, as far as its list goes (R16). -/
theorem endRecord_claims {p : PortId} {k : KioskId} {r : Option EndReason} {c : Claim}
    (hc : claimOf (s.claims.get p) k = some c) (ho : c.role = .holder → ownScan s p k = false) :
    (endRecord p k r s).claims.get p = (s.claims.get p).filter fun d => d.kiosk != k := by
  have n := news_anyNews
  have g : Only anyNews (removeClaim p k s) (endRecord p k r s) := by
    unfold endRecord
    rw [hc]
    have g2 : Only anyNews (removeClaim p k s) (if c.role = .holder then
        match (removeClaim p k s).cls p with
        | .panel => holderChanged p (removeClaim p k s)
        | .scanner => grantEnded p k (removeClaim p k s)
        | _ => removeClaim p k s
      else removeClaim p k s) := by
      refine .ite (fun h => ?_) fun _ => .refl _ _
      split
      · exact .holderChanged n (.refl _ _)
      · have : grantEnded p k (removeClaim p k s) = removeClaim p k s := by
          have := ho h
          unfold grantEnded
          simp only [removeClaim, onClaims_scanners]
          split
          · rename_i x e
            rw [if_neg]
            simpa [ownScan, e] using this
          · rfl
        rw [this]; exact .refl _ _
      · exact .refl _ _
    simp only
    split
    · exact g2.news n
    · exact g2
  have := g.same (x := .claims p) (by simp [anyNews, told])
  simp only [Part.same] at this
  rw [this]
  simp [removeClaim]

end Sys2Proof.Safety
end

