-- ==== Sys2Proof/Laws/Image.lean ====
section
/-! SUPPORT. The stored records and the settings image (R184): what a record's bytes read back as, how an image
is judged, and that settings read from any bytes lie in their ranges. -/

namespace Sys2Proof.Machine

open Sys2Proof.Safety

/-! ### Numbers -/

theorem half_bytes (h : Half) : half (h.extractLsb' 0 8) (h.extractLsb' 8 8) = h := by
  unfold half
  ext i hi
  simp only [BitVec.getElem_append, BitVec.getElem_extractLsb']
  split <;> simp_all

theorem toNat_halfOf {n : Nat} (h : n < 65536) : (halfOf n).toNat = n := by simp [halfOf]; omega

theorem toNat_byteOf {n : Nat} (h : n < 256) : (byteOf n).toNat = n := by simp [byteOf]; omega

theorem clamp_bounds {lo hi n : Nat} (h : lo ≤ hi) : lo ≤ clamp lo hi n ∧ clamp lo hi n ≤ hi := by
  unfold clamp; split <;> [omega; (split <;> omega)]

theorem clamp_of_mem {lo hi n : Nat} (h : lo ≤ n) (h' : n ≤ hi) : clamp lo hi n = n := by
  unfold clamp; split <;> [omega; (split <;> omega)]

theorem yesNoOf_flagBit (v : Bool) : yesNoOf (flagBit 0 v) = some v := by cases v <;> rfl

theorem portOf_byteOf (p : PortId) : portOf (byteOf p.val) = some p := by revert p; decide

theorem claimClassOf_byteOf (c : Fin 4) : claimClassOf (byteOf c.val) = some c := by revert c; decide

theorem levelOf_byteOf (l : Level) : levelOf (byteOf l.value) = some l := by cases l <;> rfl

/-! ### Records read back -/

theorem readConfig_configBytes {c : PortConfig} (h : c.inRange = true) : readConfig (configBytes c) = c := by
  obtain ⟨cls, r, w, i, sh, q, a, j, g, st, d, e⟩ := c
  simp only [PortConfig.inRange, Bool.and_eq_true, decide_eq_true_eq, beq_iff_eq] at h
  have hc : classOf (byteOf (classCode cls)) = some cls := by cases cls <;> rfl
  have hq : queueModeOf (byteOf (queueModeCode q)) = some q := by cases q <;> rfl
  have hd : idleDestOf (flagBit 0 d.isSome) (byteOf ((d.map (·.val)).getD 0)) = some d := by
    cases d with
    | none => rfl
    | some k => revert k; decide
  simp only [readConfig, readRecord, configBytes, halfBytes, List.cons_append, List.nil_append,
    parsePortSet, half_bytes, configOf, hc, hq, hd, yesNoOf_flagBit, Option.bind_eq_bind, Option.bind_some,
    Option.getD_some, PortConfig.mk.injEq, true_and, and_true]
  rw [toNat_halfOf (n := r) (by omega), toNat_halfOf (n := i) (by omega), toNat_halfOf (n := g) (by omega),
    toNat_byteOf (n := w) (by omega), toNat_byteOf (n := sh) (by omega), toNat_byteOf (n := j) (by omega),
    toNat_byteOf (n := st) (by omega)]
  simp only [clamp_of_mem, h, Nat.zero_le, true_and, and_true]
  omega

theorem readCalibration_calibrationBytes {c : Calibration} (h : c.inRange = true) :
    readCalibration (calibrationBytes c) = c := by
  obtain ⟨a, b, c, d, s, x, y, w, v, n, g⟩ := c
  simp only [Calibration.inRange, Bool.and_eq_true, decide_eq_true_eq] at h
  simp only [readCalibration, readRecord, calibrationBytes, halfBytes, List.cons_append, List.nil_append,
    parseCalibrate, half_bytes, calibrationOf]
  rw [toNat_halfOf (n := a) (by omega), toNat_halfOf (n := b) (by omega), toNat_halfOf (n := c) (by omega),
    toNat_halfOf (n := d) (by omega), toNat_halfOf (n := w) (by omega), toNat_halfOf (n := v) (by omega),
    toNat_byteOf (n := n) (by omega), toNat_byteOf (n := g) (by omega), if_neg (by omega),
    if_neg (by omega), if_neg (by omega)]
  cases s <;> cases x <;> cases y <;> rfl

/-- The control byte of a route entry gives back its type, its flag and its action. -/
theorem route_control (a : RouteAction) (v : Bool) (k : RouteKind) :
    ∀ c, c = flagBit 0 v ||| byteOf (2 * routeKindCode k) ||| byteOf (8 * routeActionCode a)
        ||| flagBit 6 (routeKiosk a).isSome →
      c.getLsbD 0 = v ∧ routeKindOf c = some k
        ∧ routeActionOf c (byteOf (((routeKiosk a).map (·.val)).getD 0)) = some a := by
  rintro c rfl
  cases a with
  | kiosk i => cases v <;> cases k <;> (revert i; decide)
  | _ => cases v <;> cases k <;> decide

theorem readRoute_routeBytes (e : RouteEntry) : readRoute (routeBytes e) = e := by
  obtain ⟨v, k, z1, z2, a⟩ := e
  obtain ⟨hv, hk, ha⟩ := route_control a v k _ rfl
  simp only [readRoute, readRecord, routeBytes, List.cons_append, List.nil_append, parseRouteSet,
    routeEntryOf, hv, hk, ha, Option.bind_eq_bind, Option.bind_some, Option.getD_some]

theorem readSeq_seqRecord {x : SeqConfig} (h : 100 ≤ x.windowMs) (h' : x.windowMs ≤ 5000) :
    readSeq (seqRecord x) = x := by
  obtain ⟨a, w, r⟩ := x
  have hr : responseOf (byteOf (responseCode r)) = some r := by cases r <;> rfl
  simp only [readSeq, readRecord, seqRecord, halfBytes, List.cons_append, List.nil_append, parseSeqSet,
    half_bytes, seqConfigOf, yesNoOf_flagBit, hr, Option.bind_eq_bind, Option.bind_some, Option.getD_some,
    windowOf]
  rw [toNat_halfOf (Nat.lt_of_le_of_lt h' (by decide)), clamp_of_mem h h']

theorem readProfile_profileRecord (f : Profile) : readProfile (profileRecord f) = f := by
  obtain ⟨a, c, ⟨b1, l1⟩, ⟨b2, l2⟩⟩ := f
  have ha : (flagBit 0 a).getLsbD 0 = a := by cases a <;> rfl
  simp only [readProfile, readRecord, profileRecord, List.cons_append, List.nil_append, parseProfile,
    profileOf, ha, claimClassOf_byteOf, portOf_byteOf, Option.bind_eq_bind, Option.bind_some,
    Option.getD_some]

theorem readLimits_limitsRecord {x : PowerLimits} (h : x.floor.value ≤ x.ceiling.value) :
    readLimits (limitsRecord x) = x := by
  simp only [readLimits, readRecord, limitsRecord, List.cons_append, List.nil_append, parseLimit, limitsOf,
    levelOf_byteOf, Option.bind_eq_bind, Option.bind_some]
  rw [if_neg (by omega)]; rfl

/-! ### Lengths -/

theorem length_flatMap_of {α : Type} {f : α → List Byte} {k : Nat} (h : ∀ x, (f x).length = k)
    (l : List α) : (l.flatMap f).length = l.length * k := by
  induction l with
  | nil => simp
  | cons x l ih => rw [List.flatMap_cons, List.length_append, ih, h, List.length_cons]; ring

theorem length_tableBytes {α : Type} {n k : Nat} {f : α → List Byte} (h : ∀ x, (f x).length = k)
    (t : Table α n) : (tableBytes f t).length = n * k := by
  rw [tableBytes, length_flatMap_of h]; simp

theorem length_configBytes (c : PortConfig) : (configBytes c).length = 16 := by
  simp [configBytes, halfBytes]

theorem length_calibrationBytes (c : Calibration) : (calibrationBytes c).length = 15 := by
  simp [calibrationBytes, halfBytes]

theorem length_routeBytes (e : RouteEntry) : (routeBytes e).length = 4 := by simp [routeBytes]

theorem length_seqRecord (x : SeqConfig) : (seqRecord x).length = 4 := by simp [seqRecord, halfBytes]

theorem length_profileRecord (f : Profile) : (profileRecord f).length = 6 := by simp [profileRecord]

theorem length_limitsRecord (x : PowerLimits) : (limitsRecord x).length = 2 := by simp [limitsRecord]

theorem length_portBytes (x : Settings) : (portBytes x).length = 216 := by
  rw [portBytes, length_flatMap_of (k := 18)]
  · rfl
  · intro p; rw [List.length_append, length_configBytes, length_limitsRecord]

theorem length_imageSections (x : Settings) : (imageSections x).length = 1357 := by
  simp only [imageSections, List.length_append, length_tableBytes length_profileRecord, length_portBytes,
    length_tableBytes length_calibrationBytes, length_tableBytes (length_tableBytes length_routeBytes),
    length_tableBytes length_seqRecord, List.length_singleton]

/-! ### The image as written, and how it is judged -/

theorem imageBytes_eq (x : Settings) (rest : List Byte) : imageBytes x ++ rest =
    1 :: (halfOf imageLength).extractLsb' 0 8 :: (halfOf imageLength).extractLsb' 8 8
      :: (checkWord (imageSections x)).extractLsb' 0 8 :: (checkWord (imageSections x)).extractLsb' 8 8
      :: (imageSections x ++ rest) := by
  simp only [imageBytes, halfBytes, List.cons_append, List.nil_append]

theorem imageBody_cons (a b c d e : Byte) {l : List Byte} (h : 1357 ≤ l.length) :
    imageBody (a :: b :: c :: d :: e :: l) = l.take 1357 := by
  have hd : ∀ r, (a :: b :: c :: d :: e :: l ++ r).drop headerLength = l ++ r := fun _ => rfl
  have hn : imageLength - headerLength = 1357 := rfl
  rw [imageBody, List.drop_take, hd, hn, List.take_append_of_le_length h]

theorem imageBody_imageBytes (x : Settings) (rest : List Byte) :
    imageBody (imageBytes x ++ rest) = imageSections x := by
  have h := length_imageSections x
  rw [imageBytes_eq, imageBody_cons _ _ _ _ _ (by rw [List.length_append]; omega), ← h, List.take_left]

theorem header_fields (a b c d e : Byte) (l : List Byte) :
    imageFormat (a :: b :: c :: d :: e :: l) = a ∧ imageLengthField (a :: b :: c :: d :: e :: l) = half b c
      ∧ imageCheckField (a :: b :: c :: d :: e :: l) = half d e := ⟨rfl, rfl, rfl⟩

theorem judge_imageBytes (x : Settings) (rest : List Byte) : judge (imageBytes x ++ rest) = .applied := by
  have hb := imageBody_imageBytes x rest
  rw [imageBytes_eq] at hb ⊢
  obtain ⟨hf, hl, hc⟩ := header_fields 1 ((halfOf imageLength).extractLsb' 0 8)
    ((halfOf imageLength).extractLsb' 8 8) ((checkWord (imageSections x)).extractLsb' 0 8)
    ((checkWord (imageSections x)).extractLsb' 8 8) (imageSections x ++ rest)
  rw [judge, hf, hl, hc, hb, half_bytes, half_bytes, if_neg (by decide), if_pos ⟨rfl, rfl⟩]

theorem imageBody_eq (i : List Byte) : imageBody i = (List.range' 5 1357).map (memoryAt i) := by
  refine List.ext_getElem ?_ fun k h _ => ?_
  · simp only [imageBody, List.length_drop, List.length_take, List.length_append, List.length_replicate,
      List.length_map, List.length_range', headerLength]
    have : imageLength = 1362 := rfl
    omega
  · simp only [imageBody, List.getElem_drop, List.getElem_take, List.getElem_map, List.getElem_range',
      memoryAt, headerLength, List.getElem_append, one_mul]
    split
    · rw [List.getD_eq_getElem]
    · rw [List.getD_eq_default _ _ (by omega), List.getElem_replicate]

theorem judge_applied (i : List Byte) : judge i = .applied ↔ ImageValid i := by
  have hb := imageBody_eq i
  have hn : halfOf imageLength = 1362 := by decide
  unfold judge
  split
  · rename_i h; exact iff_of_false (by decide) fun g => h g.1
  · rename_i h
    split <;> rename_i g
    · exact iff_of_true rfl ⟨not_not.mp h, hn ▸ g.1, hb ▸ g.2⟩
    · exact iff_of_false (by decide) fun k => g ⟨hn ▸ k.2.1, hb ▸ k.2.2⟩

/-- A table that was written record by record reads back. -/
theorem readTable_tableBytes {α : Type} {n k : Nat} {f : α → List Byte} {g : List Byte → α}
    {t : Table α n} (h : ∀ x, (f x).length = k) (hg : ∀ i, g (f (t.get i)) = t.get i) (rest : List Byte) :
    readTable n k g (tableBytes f t ++ rest) = t := by
  have key : ∀ (l : List α) (i : Nat) (hi : i < l.length),
      ((l.flatMap f ++ rest).drop (k * i)).take k = f l[i] := by
    intro l
    induction l with
    | nil => intro i hi; simp at hi
    | cons x l ih =>
      intro i hi
      cases i with
      | zero => simp [← h x]
      | succ i =>
        have hd : k * (i + 1) = (f x).length + k * i := by rw [h x]; ring
        rw [List.flatMap_cons, List.append_assoc, hd, ← List.drop_drop, List.drop_left]
        simpa using ih i (by simpa using hi)
  ext i hi
  rw [readTable, Vector.getElem_ofFn, tableBytes, key _ _ (by simpa using hi)]
  simpa [Table.get] using hg ⟨i, hi⟩

/-! ### What is read back lies in its range -/

theorem readRecord_holds {α β : Type} {P : β → Prop} {parse : List Byte → Body α} {of : α → Option β}
    {d : β} (hd : P d) (ho : ∀ b x, of b = some x → P x) (before bytes : List Byte) :
    P (readRecord parse of d before bytes) := by
  unfold readRecord
  split
  · cases e : of _ with
    | none => exact hd
    | some x => exact ho _ _ e
  · exact hd

theorem configOf_inRange {b : PortSetBody} {c : PortConfig} (h : configOf b = some c) : c.inRange = true := by
  simp only [configOf, Option.bind_eq_bind, Option.bind_eq_some_iff] at h
  obtain ⟨_, _, _, _, _, _, _, _, _, _, h⟩ := h
  cases h
  have h1 := clamp_bounds (n := b.responseMs.toNat) (show 10 ≤ 2550 by omega)
  have h2 := clamp_bounds (n := b.wakeS.toNat) (show 1 ≤ 120 by omega)
  have h3 := clamp_bounds (n := b.idleS.toNat) (show 0 ≤ 3600 by omega)
  have h4 := clamp_bounds (n := b.shieldS.toNat) (show 0 ≤ 60 by omega)
  have h5 := clamp_bounds (n := b.jamLimit.toNat) (show 0 ≤ 7 by omega)
  have h6 := clamp_bounds (n := b.gapMs.toNat) (show 0 ≤ 25500 by omega)
  have h7 := clamp_bounds (n := b.stallS.toNat) (show 1 ≤ 60 by omega)
  simp only [PortConfig.inRange, Bool.and_eq_true, decide_eq_true_eq, beq_iff_eq]
  omega

theorem calibrationOf_inRange {b : CalibrateBody} {c : Calibration} (h : calibrationOf b = some c) :
    c.inRange = true := by
  unfold calibrationOf at h
  simp only at h
  split at h
  · cases h
  · split at h
    · cases h
    · split at h
      · cases h
      · cases h
        simp only [Calibration.inRange, Bool.and_eq_true, decide_eq_true_eq]
        omega

theorem limitsOf_ordered {b : LimitBody} {x : PowerLimits} (h : limitsOf b = some x) :
    x.floor.value ≤ x.ceiling.value := by
  simp only [limitsOf, Option.bind_eq_bind, Option.bind_eq_some_iff] at h
  obtain ⟨_, _, _, _, h⟩ := h
  split at h
  · cases h
  · cases h; simp only; omega

theorem seqConfigOf_inRange {b : SeqSetBody} {x : SeqConfig} (h : seqConfigOf b = some x) :
    100 ≤ x.windowMs ∧ x.windowMs ≤ 5000 := by
  simp only [seqConfigOf, Option.bind_eq_bind, Option.bind_eq_some_iff] at h
  obtain ⟨_, _, _, _, h⟩ := h
  cases h
  exact clamp_bounds (by omega)

theorem settingsIn_inRange (i : List Byte) : (settingsIn i).inRange = true := by
  rw [Settings.inRange, List.all_eq_true]
  intro p _
  simp only [settingsIn, readTable, Table.get, Bool.and_eq_true, decide_eq_true_eq, and_assoc, Fin.getElem_fin,
    Vector.getElem_ofFn]
  exact ⟨readRecord_holds (P := fun c : PortConfig => c.inRange = true) (by decide)
      (fun _ _ => configOf_inRange) _ _,
    readRecord_holds (P := fun c : Calibration => c.inRange = true) (by decide)
      (fun _ _ => calibrationOf_inRange) _ _,
    readRecord_holds (P := fun c : PowerLimits => c.floor.value ≤ c.ceiling.value) (by decide)
      (fun _ _ => limitsOf_ordered) _ _,
    readRecord_holds (P := fun c : SeqConfig => 100 ≤ c.windowMs ∧ c.windowMs ≤ 5000) (by decide)
      (fun _ _ => seqConfigOf_inRange) _ _⟩

end Sys2Proof.Machine
end

