-- ==== Sys2Proof/Laws/PerInstr.lean ====
section
/-! SUPPORT. One lemma for each command: the frame that the layouts give it, when it is a frame, has a body
that fits the length field's range (R171, R189). -/

namespace Sys2Proof.Laws

open Sys2Proof.Machine

/-- A well-formed command's frame, where it has one, has a body of at most 299 bytes (R171). -/
def FrameFits.Statement (i : Instr) : Prop :=
  WellFormed i = true → ∀ w f, frameOf i = some (w, f) → f.body.length ≤ 299

/-- A frame built from a body's fields has the bytes of some fields as its body. -/
theorem bodyFrame_some {α : Type} {w v : Wire} {kind : Byte} {b : Body α} {bytes : α → List Byte}
    {f : Frame} (h : bodyFrame w kind b bytes = some (v, f)) :
    ∃ x, b = .fields x ∧ v = w ∧ f = ⟨kind, bytes x⟩ := by
  cases b with
  | wrongLength => simp [bodyFrame] at h
  | fields x =>
    simp only [bodyFrame, Option.some.injEq, Prod.mk.injEq] at h
    exact ⟨x, rfl, h.1.symm, h.2.symm⟩

/-- A body of fields has a length that fits when every value of the fields gives one. -/
theorem bodyFrame_fits {α : Type} {w v : Wire} {kind : Byte} {b : Body α} {bytes : α → List Byte}
    (hb : ∀ x, (bytes x).length ≤ 299) {f : Frame} (h : bodyFrame w kind b bytes = some (v, f)) :
    f.body.length ≤ 299 := by
  obtain ⟨x, -, -, rfl⟩ := bodyFrame_some h
  exact hb x

theorem option_length {α : Type} (o : Option α) : o.toList.length ≤ 1 := by cases o <;> simp

theorem FrameFits.powerOn : FrameFits.Statement .powerOn := by
  intro _ w f h
  simp [frameOf] at h

theorem FrameFits.resetLine : FrameFits.Statement .resetLine := by
  intro _ w f h
  simp [frameOf] at h

theorem FrameFits.startupReadEnds (answer : MemoryAnswer) (cueHigh : Bool) :
    FrameFits.Statement (.startupReadEnds answer cueHigh) := by
  intro _ w f h
  simp [frameOf] at h

theorem FrameFits.hello (l : LinkId) (b : Body Unit) :
    FrameFits.Statement (.hello l b) := by
  intro _ w f h
  exact bodyFrame_fits (fun x => by simp [noBytes]) h

theorem FrameFits.bye (l : LinkId) (b : Body Unit) :
    FrameFits.Statement (.bye l b) := by
  intro _ w f h
  exact bodyFrame_fits (fun x => by simp [noBytes]) h

theorem FrameFits.claim (k : KioskId) (b : Body Byte) :
    FrameFits.Statement (.claim k b) := by
  intro _ w f h
  exact bodyFrame_fits (fun x => by simp [oneByte]) h

theorem FrameFits.release (k : KioskId) (b : Body Byte) :
    FrameFits.Statement (.release k b) := by
  intro _ w f h
  exact bodyFrame_fits (fun x => by simp [oneByte]) h

theorem FrameFits.claimQuery (k : KioskId) (b : Body Byte) :
    FrameFits.Statement (.claimQuery k b) := by
  intro _ w f h
  exact bodyFrame_fits (fun x => by simp [oneByte]) h

theorem FrameFits.submit (k : KioskId) (b : Body SubmitBody) :
    FrameFits.Statement (.submit k b) := by
  intro _ w f h
  refine bodyFrame_fits (fun x => ?_) h
  have := option_length x.tray
  simp only [submitBytes, halfBytes, List.length_append, List.length_cons, List.length_nil]
  omega

theorem FrameFits.cancel (k : KioskId) (b : Body Half) :
    FrameFits.Statement (.cancel k b) := by
  intro _ w f h
  exact bodyFrame_fits (fun x => by simp [halfBytes]) h

theorem FrameFits.jobQuery (k : KioskId) (b : Body Half) :
    FrameFits.Statement (.jobQuery k b) := by
  intro _ w f h
  exact bodyFrame_fits (fun x => by simp [halfBytes]) h

theorem FrameFits.scan (k : KioskId) (b : Body ScanBody) :
    FrameFits.Statement (.scan k b) := by
  intro _ w f h
  exact bodyFrame_fits (fun x => by simp [scanBytes, halfBytes]) h

theorem FrameFits.scanStop (k : KioskId) (b : Body Byte) :
    FrameFits.Statement (.scanStop k b) := by
  intro _ w f h
  exact bodyFrame_fits (fun x => by simp [oneByte]) h

theorem FrameFits.vote (k : KioskId) (b : Body VoteBody) :
    FrameFits.Statement (.vote k b) := by
  intro _ w f h
  refine bodyFrame_fits (fun x => ?_) h
  have := option_length x.level
  simp only [voteBytes, List.length_append, List.length_cons, List.length_nil]
  omega

theorem FrameFits.portQuery (l : LinkId) (b : Body Byte) :
    FrameFits.Statement (.portQuery l b) := by
  intro _ w f h
  exact bodyFrame_fits (fun x => by simp [oneByte]) h

theorem FrameFits.staffScan (b : Body ScanBody) :
    FrameFits.Statement (.staffScan b) := by
  intro _ w f h
  exact bodyFrame_fits (fun x => by simp [scanBytes, halfBytes]) h

theorem FrameFits.staffScanStop (b : Body Byte) :
    FrameFits.Statement (.staffScanStop b) := by
  intro _ w f h
  exact bodyFrame_fits (fun x => by simp [oneByte]) h

theorem FrameFits.setAdmission (b : Body AdmitBody) :
    FrameFits.Statement (.setAdmission b) := by
  intro _ w f h
  exact bodyFrame_fits (fun x => by simp) h

theorem FrameFits.profileSet (b : Body ProfileBody) :
    FrameFits.Statement (.profileSet b) := by
  intro _ w f h
  exact bodyFrame_fits (fun x => by simp [profileBytes]) h

theorem FrameFits.kioskQuery (b : Body Byte) :
    FrameFits.Statement (.kioskQuery b) := by
  intro _ w f h
  exact bodyFrame_fits (fun x => by simp [oneByte]) h

theorem FrameFits.kioskDrop (b : Body Byte) :
    FrameFits.Statement (.kioskDrop b) := by
  intro _ w f h
  exact bodyFrame_fits (fun x => by simp [oneByte]) h

theorem FrameFits.portSet (b : Body PortSetBody) :
    FrameFits.Statement (.portSet b) := by
  intro _ w f h
  exact bodyFrame_fits (fun x => by simp [portSetBytes, halfBytes]) h

theorem FrameFits.calibrate (b : Body CalibrateBody) :
    FrameFits.Statement (.calibrate b) := by
  intro _ w f h
  exact bodyFrame_fits (fun x => by simp [calibrateBytes, halfBytes]) h

theorem FrameFits.routeSet (b : Body RouteSetBody) :
    FrameFits.Statement (.routeSet b) := by
  intro _ w f h
  exact bodyFrame_fits (fun x => by simp [routeSetBytes]) h

theorem FrameFits.routeQuery (b : Body Byte) :
    FrameFits.Statement (.routeQuery b) := by
  intro _ w f h
  exact bodyFrame_fits (fun x => by simp [oneByte]) h

theorem FrameFits.seqSet (b : Body SeqSetBody) :
    FrameFits.Statement (.seqSet b) := by
  intro _ w f h
  exact bodyFrame_fits (fun x => by simp [seqSetBytes, halfBytes]) h

theorem FrameFits.seqQuery (b : Body Byte) :
    FrameFits.Statement (.seqQuery b) := by
  intro _ w f h
  exact bodyFrame_fits (fun x => by simp [oneByte]) h

theorem FrameFits.cueSet (b : Body Byte) :
    FrameFits.Statement (.cueSet b) := by
  intro _ w f h
  exact bodyFrame_fits (fun x => by simp [oneByte]) h

theorem FrameFits.take (b : Body Byte) :
    FrameFits.Statement (.take b) := by
  intro _ w f h
  exact bodyFrame_fits (fun x => by simp [oneByte]) h

theorem FrameFits.giveBack (b : Body Byte) :
    FrameFits.Statement (.giveBack b) := by
  intro _ w f h
  exact bodyFrame_fits (fun x => by simp [oneByte]) h

theorem FrameFits.closeHall (b : Body Unit) :
    FrameFits.Statement (.closeHall b) := by
  intro _ w f h
  exact bodyFrame_fits (fun x => by simp [noBytes]) h

theorem FrameFits.openHall (b : Body Unit) :
    FrameFits.Statement (.openHall b) := by
  intro _ w f h
  exact bodyFrame_fits (fun x => by simp [noBytes]) h

theorem FrameFits.limit (b : Body LimitBody) :
    FrameFits.Statement (.limit b) := by
  intro _ w f h
  exact bodyFrame_fits (fun x => by simp) h

theorem FrameFits.portReset (b : Body Byte) :
    FrameFits.Statement (.portReset b) := by
  intro _ w f h
  exact bodyFrame_fits (fun x => by simp [oneByte]) h

theorem FrameFits.check (b : Body CheckBody) :
    FrameFits.Statement (.check b) := by
  intro _ w f h
  exact bodyFrame_fits (fun x => by simp) h

theorem FrameFits.jobDrop (b : Body Half) :
    FrameFits.Statement (.jobDrop b) := by
  intro _ w f h
  exact bodyFrame_fits (fun x => by simp [halfBytes]) h

theorem FrameFits.queueList (b : Body ListBody) :
    FrameFits.Statement (.queueList b) := by
  intro _ w f h
  exact bodyFrame_fits (fun x => by simp) h

theorem FrameFits.claimList (b : Body ListBody) :
    FrameFits.Statement (.claimList b) := by
  intro _ w f h
  exact bodyFrame_fits (fun x => by simp) h

theorem FrameFits.save (b : Body Unit) :
    FrameFits.Statement (.save b) := by
  intro _ w f h
  exact bodyFrame_fits (fun x => by simp [noBytes]) h

theorem FrameFits.load (b : Body Unit) :
    FrameFits.Statement (.load b) := by
  intro _ w f h
  exact bodyFrame_fits (fun x => by simp [noBytes]) h

theorem FrameFits.hubReset (b : Body Unit) :
    FrameFits.Statement (.hubReset b) := by
  intro _ w f h
  exact bodyFrame_fits (fun x => by simp [noBytes]) h

theorem FrameFits.hubIdent (b : Body Unit) :
    FrameFits.Statement (.hubIdent b) := by
  intro _ w f h
  exact bodyFrame_fits (fun x => by simp [noBytes]) h

theorem FrameFits.unknownKind (l : LinkId) (kind : Byte) :
    FrameFits.Statement (.unknownKind l kind) := by
  intro _ w f h
  simp [frameOf] at h

theorem FrameFits.discardedFrame (w : Wire) (bytes : List Byte) :
    FrameFits.Statement (.discardedFrame w bytes) := by
  intro _ w f h
  simp [frameOf] at h

theorem FrameFits.chunk (w : Wire) (b : Body ChunkBody) :
    FrameFits.Statement (.chunk w b) := by
  intro hw v f h
  obtain ⟨x, rfl, -, rfl⟩ := bodyFrame_some h
  simp only [WellFormed, chunkOk, Bool.and_eq_true, decide_eq_true_eq] at hw
  simp only [chunkBodyBytes, List.length_append, List.length_cons, List.length_nil]
  omega

theorem FrameFits.credit (l : LinkId) (b : Body CreditBody) :
    FrameFits.Statement (.credit l b) := by
  intro _ w f h
  exact bodyFrame_fits (fun x => by simp) h

theorem FrameFits.adapterCredit (p : PortId) (b : CreditBody) :
    FrameFits.Statement (.adapterCredit p b) := by
  intro _ w f h
  simp only [frameOf, Option.some.injEq, Prod.mk.injEq] at h
  obtain ⟨-, rfl⟩ := h
  simp

theorem FrameFits.announce (p : PortId) :
    FrameFits.Statement (.announce p) := by
  intro _ w f h
  simp only [frameOf, Option.some.injEq, Prod.mk.injEq] at h
  obtain ⟨-, rfl⟩ := h
  simp

theorem FrameFits.ident (p : PortId) (b : IdentBody) :
    FrameFits.Statement (.ident p b) := by
  intro _ w f h
  simp only [frameOf, Option.some.injEq, Prod.mk.injEq] at h
  obtain ⟨-, rfl⟩ := h
  simp [halfBytes]

theorem FrameFits.powerDone (p : PortId) (level : Byte) :
    FrameFits.Statement (.powerDone p level) := by
  intro _ w f h
  simp only [frameOf, Option.some.injEq, Prod.mk.injEq] at h
  obtain ⟨-, rfl⟩ := h
  simp

theorem FrameFits.printAccept (p : PortId) (credit : Byte) :
    FrameFits.Statement (.printAccept p credit) := by
  intro _ w f h
  simp only [frameOf, Option.some.injEq, Prod.mk.injEq] at h
  obtain ⟨-, rfl⟩ := h
  simp

theorem FrameFits.progress (p : PortId) (sheets : Half) :
    FrameFits.Statement (.progress p sheets) := by
  intro _ w f h
  simp only [frameOf, Option.some.injEq, Prod.mk.injEq] at h
  obtain ⟨-, rfl⟩ := h
  simp [halfBytes]

theorem FrameFits.held (p : PortId) :
    FrameFits.Statement (.held p) := by
  intro _ w f h
  simp only [frameOf, Option.some.injEq, Prod.mk.injEq] at h
  obtain ⟨-, rfl⟩ := h
  simp

theorem FrameFits.printEnd (p : PortId) (outcome : Byte) (sheets : Half) :
    FrameFits.Statement (.printEnd p outcome sheets) := by
  intro _ w f h
  simp only [frameOf, Option.some.injEq, Prod.mk.injEq] at h
  obtain ⟨-, rfl⟩ := h
  simp [halfBytes]

theorem FrameFits.fault (p : PortId) (kind : Byte) :
    FrameFits.Statement (.fault p kind) := by
  intro _ w f h
  simp only [frameOf, Option.some.injEq, Prod.mk.injEq] at h
  obtain ⟨-, rfl⟩ := h
  simp

theorem FrameFits.cleared (p : PortId) :
    FrameFits.Statement (.cleared p) := by
  intro _ w f h
  simp only [frameOf, Option.some.injEq, Prod.mk.injEq] at h
  obtain ⟨-, rfl⟩ := h
  simp

theorem FrameFits.scanAccept (p : PortId) :
    FrameFits.Statement (.scanAccept p) := by
  intro _ w f h
  simp only [frameOf, Option.some.injEq, Prod.mk.injEq] at h
  obtain ⟨-, rfl⟩ := h
  simp

theorem FrameFits.scanCode (p : PortId) (symbology : Byte) (text : List Byte) :
    FrameFits.Statement (.scanCode p symbology text) := by
  intro hw w f h
  simp only [WellFormed, Bool.and_eq_true, decide_eq_true_eq] at hw
  simp only [frameOf, Option.some.injEq, Prod.mk.injEq] at h
  obtain ⟨-, rfl⟩ := h
  simp only [List.length_append, List.length_cons, List.length_nil]
  omega

theorem FrameFits.scanEnd (p : PortId) (outcome : Byte) (sent : BitVec 32) :
    FrameFits.Statement (.scanEnd p outcome sent) := by
  intro _ w f h
  simp only [frameOf, Option.some.injEq, Prod.mk.injEq] at h
  obtain ⟨-, rfl⟩ := h
  simp [wordBytes]

theorem FrameFits.touchDown (p : PortId) (b : TouchBody) :
    FrameFits.Statement (.touchDown p b) := by
  intro _ w f h
  simp only [frameOf, Option.some.injEq, Prod.mk.injEq] at h
  obtain ⟨-, rfl⟩ := h
  simp [touchReportBytes, halfBytes]

theorem FrameFits.touchMove (p : PortId) (b : TouchBody) :
    FrameFits.Statement (.touchMove p b) := by
  intro _ w f h
  simp only [frameOf, Option.some.injEq, Prod.mk.injEq] at h
  obtain ⟨-, rfl⟩ := h
  simp [touchReportBytes, halfBytes]

theorem FrameFits.touchUp (p : PortId) (b : TouchBody) :
    FrameFits.Statement (.touchUp p b) := by
  intro _ w f h
  simp only [frameOf, Option.some.injEq, Prod.mk.injEq] at h
  obtain ⟨-, rfl⟩ := h
  simp [touchReportBytes, halfBytes]

theorem FrameFits.docSense (p : PortId) (flags : Byte) :
    FrameFits.Statement (.docSense p flags) := by
  intro _ w f h
  simp only [frameOf, Option.some.injEq, Prod.mk.injEq] at h
  obtain ⟨-, rfl⟩ := h
  simp

theorem FrameFits.testResult (p : PortId) (flags : Byte) :
    FrameFits.Statement (.testResult p flags) := by
  intro _ w f h
  simp only [frameOf, Option.some.injEq, Prod.mk.injEq] at h
  obtain ⟨-, rfl⟩ := h
  simp

theorem FrameFits.echo (p : PortId) (data : List Byte) :
    FrameFits.Statement (.echo p data) := by
  intro hw w f h
  simp only [WellFormed, decide_eq_true_eq] at hw
  simp only [frameOf, Option.some.injEq, Prod.mk.injEq] at h
  obtain ⟨-, rfl⟩ := h
  exact hw

theorem FrameFits.alive (p : PortId) :
    FrameFits.Statement (.alive p) := by
  intro _ w f h
  simp only [frameOf, Option.some.injEq, Prod.mk.injEq] at h
  obtain ⟨-, rfl⟩ := h
  simp

theorem FrameFits.adapterFrameWrongLength (p : PortId) (kind : Byte) :
    FrameFits.Statement (.adapterFrameWrongLength p kind) := by
  intro _ w f h
  simp [frameOf] at h

theorem FrameFits.adapterUnknownKind (p : PortId) (kind : Byte) :
    FrameFits.Statement (.adapterUnknownKind p kind) := by
  intro _ w f h
  simp [frameOf] at h

theorem FrameFits.cueEdge (high : Bool) (seen : Tick) :
    FrameFits.Statement (.cueEdge high seen) := by
  intro _ w f h
  simp [frameOf] at h

theorem FrameFits.idleExpiry (p : PortId) :
    FrameFits.Statement (.idleExpiry p) := by
  intro _ w f h
  simp [frameOf] at h

theorem FrameFits.shieldExpiry (p : PortId) :
    FrameFits.Statement (.shieldExpiry p) := by
  intro _ w f h
  simp [frameOf] at h

theorem FrameFits.gapExpiry (p : PortId) :
    FrameFits.Statement (.gapExpiry p) := by
  intro _ w f h
  simp [frameOf] at h

theorem FrameFits.kioskStall (p : PortId) :
    FrameFits.Statement (.kioskStall p) := by
  intro _ w f h
  simp [frameOf] at h

theorem FrameFits.pushStall (p : PortId) :
    FrameFits.Statement (.pushStall p) := by
  intro _ w f h
  simp [frameOf] at h

theorem FrameFits.cueSaturated (p : PortId) :
    FrameFits.Statement (.cueSaturated p) := by
  intro _ w f h
  simp [frameOf] at h

theorem FrameFits.seqExpiry (p : PortId) :
    FrameFits.Statement (.seqExpiry p) := by
  intro _ w f h
  simp [frameOf] at h

theorem FrameFits.responseTimeout (p : PortId) :
    FrameFits.Statement (.responseTimeout p) := by
  intro _ w f h
  simp [frameOf] at h

theorem FrameFits.adapterSilence (p : PortId) :
    FrameFits.Statement (.adapterSilence p) := by
  intro _ w f h
  simp [frameOf] at h

theorem FrameFits.clearSpacingExpiry (p : PortId) :
    FrameFits.Statement (.clearSpacingExpiry p) := by
  intro _ w f h
  simp [frameOf] at h

theorem FrameFits.linkSilence (l : LinkId) :
    FrameFits.Statement (.linkSilence l) := by
  intro _ w f h
  simp [frameOf] at h

theorem FrameFits.frameSent (l : LinkId) :
    FrameFits.Statement (.frameSent l) := by
  intro _ w f h
  simp [frameOf] at h

theorem FrameFits.deviceFrameSent (p : PortId) :
    FrameFits.Statement (.deviceFrameSent p) := by
  intro _ w f h
  simp [frameOf] at h

theorem FrameFits.writingEnds (acknowledged : Bool) :
    FrameFits.Statement (.writingEnds acknowledged) := by
  intro _ w f h
  simp [frameOf] at h

theorem FrameFits.loadReadEnds (answer : MemoryAnswer) :
    FrameFits.Statement (.loadReadEnds answer) := by
  intro _ w f h
  simp [frameOf] at h

end Sys2Proof.Laws
end

