-- ==== Sys2Proof/Tests/Slice0.lean ====
section
/-! SUPPORT. The model's own tests. First a bench: a small hub with a printer D0, a panel D10 and a scanner D11,
everything else UNUSED, every link UP and the tick at 1000. Then what `WellFormed` refuses, the spec's worked
examples and a step of the families, and for each obligation a theorem that its hypotheses can be met, clause
by clause. -/

namespace Sys2Proof.Tests

open Sys2Proof.Machine Sys2Proof.Safety

set_option Elab.async false

/-! ### The bench -/

/-- A port with a class, a condition and a reached level. -/
def port (p : PortId) (c : PortClass) (cond : Condition) (l : Option Level) (s : State) : State :=
  { s with
    configs := s.configs.modify p fun x => { x with cls := c }
    ctls := s.ctls.modify p fun x => { x with cond := cond, silence := some 31000 }
    power := s.power.modify p fun x => { x with reached := l } }

/-- The hub that the tests start from. -/
def hub : State :=
  port 0 .printer .serving (some .ready) <| port 10 .panel .serving (some .ready) <|
    port 11 .scanner .serving (some .ready)
      { State.reset with
        tick := 1000
        loader := { Loader.reset with starting := false, outcome := some (.defaulted .blank) }
        kiosks := Table.fill 24 { LinkUnit.reset with up := true, silence := some 31000 }
        staff := { LinkUnit.reset with up := true, silence := some 31000 } }

def cond (p : PortId) (c : Condition) (s : State) : State := onCtl p (fun x => { x with cond := c }) s

def level (p : PortId) (l : Option Level) (moving : Bool) (s : State) : State :=
  onPower p (fun x => { x with reached := l, moving := moving }) s

def claims (p : PortId) (l : List Claim) (s : State) : State := onClaims p (fun _ => l) s

def take (p : PortId) (t : TakeState) (shield : Option Tick) (s : State) : State :=
  onTake p (fun _ => ⟨t, shield⟩) s

def printer (p : PortId) (q : List Job) (j : Option Job) (gap : Option Tick) (s : State) : State :=
  onPrinter p (fun _ => ⟨q, j, gap⟩) s

def scanning (p : PortId) (x : Scan) (s : State) : State := onScanner p (fun y => { y with scan := some x }) s

def stream (p : PortId) (x : Stream) (s : State) : State := onStream p (fun _ => some x) s

def contacts (p : PortId) (l : List Contact) (s : State) : State :=
  onPanel p (fun x => { x with contacts := l }) s

/-- Route entry 0 of a panel, enabled, RANGE 0 to 255. -/
def route (p : PortId) (a : RouteAction) (s : State) : State :=
  onPanel p (fun x => { x with routes := x.routes.put 0 ⟨true, .range, 0, 255, a⟩ }) s

def trigger (p : PortId) (r : SeqResponse) (st : SeqState) (s : State) : State :=
  onPanel p (fun x => { x with seq := { x.seq with armed := true, response := r }, seqState := st }) s

def check (p : PortId) (status : CheckStatus) (st : Option CheckStep) (s : State) : State :=
  onCtl p (fun x => { x with
    check := { x.check with status := status, step := st, duration := some 3, started := some 900 } }) s

def down (l : LinkId) (s : State) : State := onLink l (fun _ => LinkUnit.reset) s

def busyOn (l : LinkId) (s : State) : State := onLink l (fun u => { u with outstanding := true }) s

def queued (l : LinkId) (q : List Item) (s : State) : State := onLink l (fun u => { u with queue := q }) s

/-- A holder's record, idle deadline given. -/
def held (k : KioskId) (d : Option Tick) : Claim := ⟨k, 2, 5, .holder, false, d, some 6, false⟩

def waiter (k : KioskId) (c : Fin 4) : Claim := ⟨k, c, 7, .waiter, false, none, none, false⟩

def job (id : Nat) (k : KioskId) (st : JobState) : Job :=
  { id := id, kiosk := k, tag := 7, priority := 3, copies := 1, pages := 2, options := ⟨false, false, none⟩
    state := st, resume := none, fault := none, holdSent := false, cancelRequested := .no
    abortCause := none, abortSent := false, printed := 0, pageEnds := 0, jams := 0, submitted := 900 }

def stalledJob (id : Nat) (k : KioskId) : Job :=
  { job id k .stalled with resume := some .printing, fault := some .jam, jams := 1 }

def scan (l : LinkId) (m : ScanMode) (st : ScanState) : Scan :=
  { requester := l, mode := m, resolution := 300, credit := 4, state := st, abortSent := false, reason := none
    resultGiven := false, code := none, forwarded := 0, reported := none, started := 950 }

def aborted (x : Scan) : Scan := { x with abortSent := true, reason := some .stopped, resultGiven := true }

/-- A job's stream: its sender has sent nothing and has all 4 credits. -/
def pull (k : KioskId) : Stream := ⟨.pull, .kiosk k, 0, 4, 0, 1, [], false, false, false, some 101000⟩

/-- A scan's stream that holds one chunk and has no sink credit. -/
def push (l : LinkId) : Stream := ⟨.push, l, 1, 3, 0, 0, [⟨0, false, false, [1]⟩], false, false, false, some 1000⟩

def contact (id : Fin 16) (d : Dest) (live : Bool) : Contact := ⟨id, d, .holder, live, 990, 0, 0, 0, false⟩

/-- A report at the top left corner, of a contact, arriving now. -/
def report (id : Byte) : TouchBody := ⟨1000, id, 0, 0, 9⟩

/-- A queued MOVE of contact 15 on the panel. -/
def movePlaced : TouchRecord :=
  { port := 10, contact := 15, phase := .move, x := 4, y := 4, zone := 0, pressure := 1, stamp := 995
    edge := false, cancelled := false, cue := none, gap := false }

/-- A PORT_SET body: this class, and else the factory defaults. -/
def portSetBody (p c : Byte) : PortSetBody := ⟨p, c, 500, 20, 120, 5, 0, 1, 3, 0, 10, 0, 0, 0⟩

/-- A state in which every block has work. -/
def busy : State :=
  claims 11 [held 2 none] <| scanning 11 (scan (.kiosk 2) .image .scanning) <| stream 11 (push (.kiosk 2)) <|
    printer 0 [job 5 1 .queued] (some (job 4 0 .printing)) none <| stream 0 (pull 0) <|
    claims 10 [held 3 (some 5000), waiter 4 1, waiter 5 2] <|
    contacts 10 [contact 15 (.link (.kiosk 3)) true] <|
    queued .staff [⟨.touch movePlaced, false⟩, ⟨.saveResult true, false⟩] <| down (.kiosk 23)
      { hub with nextJob := 4095 }

/-- What a command leaves; the state itself if the command stopped. -/
def run (c : Instr) (s : State) : State :=
  match exec c s with
  | .next t => t
  | _ => s

/-! ### Premises over what an option holds -/

theorem some_all {α : Type} {o : Option α} {P : α → Prop} (h : ∀ c ∈ o, P c) : ∀ c, o = some c → P c :=
  fun c e => h c e

theorem items_all {q : List Item} {P : TouchRecord → Prop} (h : ∀ z ∈ q, ∀ y ∈ Item.touch? z, P y) :
    ∀ z ∈ q, ∀ y, Item.touch? z = some y → P y :=
  fun z hz y hy => h z hz y hy

theorem items_others {q : List Item} {p : PortId} {id : Fin 16}
    (h : ∀ z ∈ q, ∀ o ∈ Item.touch? z, ¬ (o.port = p ∧ o.contact = id)) : ∀ z ∈ q, ¬ TouchOf p id z :=
  fun z hz ⟨o, e, r⟩ => h z hz o e r

theorem no_move {q : List Item} {p : PortId} {id : Fin 16}
    (h : ∀ z ∈ q, ∀ o ∈ Item.touch? z, o.port = p → o.contact = id → o.phase ≠ .move) : NoMoveWaits p id q :=
  fun _ i o hi ho hp hc _ => h i (List.mem_of_getElem? hi) o ho hp hc

theorem by_entry {t : Table RouteEntry 16} {zone : Nat} {a : RouteAction} (i : Fin 16)
    (h : (t.get i).enabled = true ∧ routeMatches (t.get i) zone = true ∧ (t.get i).action = a
      ∧ ∀ j, j < i → (t.get j).enabled = true → routeMatches (t.get j) zone = false) : Decides t zone a :=
  .inl ⟨i, h⟩

theorem by_default {t : Table RouteEntry 16} {zone : Nat}
    (h : ∀ i, (t.get i).enabled = true → routeMatches (t.get i) zone = false) : Decides t zone .holder :=
  .inr ⟨rfl, h⟩

theorem first_alone {l : LinkId} {p : PortId} {s : State} (h : ∀ q, q ≠ p → s.streams.get q = none) :
    FirstInRound l p s := by
  intro q x e _
  by_cases c : q = p
  · rw [c]
  · rw [h q c] at e
    cases e

theorem streams_all {s : State} {Q : PortId → Prop} {P : PortId → Stream → Prop}
    (h : ∀ p, ∀ x ∈ s.streams.get p, P p x) : ∀ p, Q p → ∀ x, s.streams.get p = some x → P p x :=
  fun p _ x e => h p x e
/-- What a step leaves; the state itself if it stopped. -/
def stepped (s : State) : State :=
  match step s with
  | .next t => t
  | _ => s

/-! ### A state with work everywhere that meets every invariant -/

theorem busy_streams : StreamsBalance busy := fun p => some_all (by revert p; decide +kernel)

theorem busy_queues : QueuesFit busy := by
  intro l
  unfold QueueFits
  cases l with
  | staff => decide +kernel
  | kiosk k => revert k; decide +kernel

theorem busy_contacts : ContactsBounded busy := by unfold ContactsBounded; decide +kernel

theorem busy_claims : ClaimsOrdered busy := by unfold ClaimsOrdered ListOrdered; decide +kernel

theorem busy_frozen : DeadlinesFrozen busy := by unfold DeadlinesFrozen; decide +kernel

theorem busy_jobs : JobsBounded busy :=
  ⟨by decide +kernel, by decide +kernel, by decide +kernel, fun p => some_all (by revert p; decide +kernel)⟩

theorem busy_ids : JobIdsUnique busy := by unfold JobIdsUnique; decide +kernel

theorem busy_quiet : QuietIsEmpty busy := by unfold QuietIsEmpty; decide +kernel

theorem busy_scans : ScansOwned busy := by
  refine ⟨by decide +kernel, by decide +kernel, by unfold ScansOnScanners; decide +kernel, fun p x k h => ?_⟩
  have : ∀ p, ∀ x ∈ (busy.scanners.get p).scan, ∀ k, x.requester = .kiosk k → x.abortSent = false →
      busy.holder p = some k := by decide +kernel
  exact this p x h k

theorem busy_away : AwayHasNothing busy := by
  intro k hk
  have hk' : k = 23 := by revert k; decide +kernel
  subst hk'
  refine ⟨by decide +kernel, by decide +kernel, by decide +kernel, by decide +kernel, fun p => ⟨?_, ?_,
    some_all ?_, some_all ?_, ?_, some_all ?_, ?_⟩⟩ <;> (revert p; decide +kernel)

theorem busy_settings : SettingsHeldInRange busy := by unfold SettingsHeldInRange; decide +kernel

theorem busy_safe : Safe busy :=
  ⟨busy_streams, busy_queues, busy_contacts, busy_claims, busy_frozen, busy_jobs, busy_ids, busy_quiet,
    busy_scans, busy_away, busy_settings⟩

theorem busy_image : ImageValid (imageBytes busy.settings) := by
  have h := judge_imageBytes busy.settings []
  rw [List.append_nil] at h
  exact (judge_applied _).1 h

/-! ### What `WellFormed` refuses, check by check -/

/-- An answer longer than the settings memory. -/
theorem test_ill_formed_images :
    WellFormed (.startupReadEnds (.bytes (List.replicate 8193 0)) true) = false
      ∧ WellFormed (.loadReadEnds (.bytes (List.replicate 8193 0))) = false
      ∧ WellFormed (.loadReadEnds (.bytes [1, 2])) = true := by
  have h : decide ((List.replicate 8193 (0 : Byte)).length ≤ Config.memoryBytes) = false := by
    rw [List.length_replicate]; decide
  exact ⟨h, h, by decide⟩

theorem test_ill_formed_calibration :
    Calibration.inRange { defaultCalibration with xMin := 4095 } = false
      ∧ Calibration.inRange { defaultCalibration with cols := 17 } = false
      ∧ Calibration.inRange defaultCalibration = true := by decide

/-- The tray without its flag, and the flag without its tray (R189). -/
theorem test_ill_formed_submit :
    WellFormed (.submit 0 (.fields ⟨0, 1, 0, 1, 1, 0, some 1⟩)) = false
      ∧ WellFormed (.submit 0 (.fields ⟨0, 1, 0, 1, 1, 4, none⟩)) = false := by decide

/-- A kind of the catalogue is no unknown kind. -/
theorem test_ill_formed_kinds :
    WellFormed (.unknownKind (.kiosk 0) 0x1B) = false ∧ WellFormed (.unknownKind (.kiosk 0) 0x60) = false
      ∧ WellFormed (.unknownKind .staff 0x38) = false ∧ WellFormed (.unknownKind .staff 0x61) = false
      ∧ WellFormed (.adapterUnknownKind 0 0xAF) = false
      ∧ WellFormed (.adapterFrameWrongLength 0 0xB0) = false
      ∧ WellFormed (.adapterFrameWrongLength 0 Kind.echo) = false := by decide

/-- Bytes that begin with no start byte, or that are a frame still incomplete or valid, are no discarded
frame. -/
theorem test_ill_formed_discarded :
    WellFormed (.discardedFrame (.link .staff) []) = false ∧ WellFormed (.discardedFrame (.link .staff) [0, 0, 0]) = false
      ∧ WellFormed (.discardedFrame (.link .staff) [0xC3, 1]) = false
      ∧ WellFormed (.discardedFrame (.link .staff) [0xC3, 1, 0, 0xAF, 0xA9, 0xBF]) = false
      ∧ WellFormed (.discardedFrame (.link .staff) [0xC3, 0, 0]) = true := by decide +kernel

theorem test_ill_formed_lengths :
    WellFormed (.chunk (.link .staff) (.fields ⟨0, 0, 0, []⟩)) = false
      ∧ WellFormed (.chunk (.link .staff) (.fields ⟨0, 0, 0, List.replicate 257 0⟩)) = false
      ∧ WellFormed (.scanCode 0 1 []) = false ∧ WellFormed (.scanCode 0 1 (List.replicate 65 0)) = false
      ∧ WellFormed (.echo 0 (List.replicate 300 0)) = false := by decide +kernel

/-! ### Frames, byte by byte from the layouts (R171; 12_frame_and_record_layouts.md) -/

/-- The check word of the nine bytes 31 to 39 is 0x29B1 (R171). -/
theorem test_check_word :
    checkWord [0x31, 0x32, 0x33, 0x34, 0x35, 0x36, 0x37, 0x38, 0x39] = 0x29B1 := by decide +kernel

/-- ALIVE with its envelope: start byte, length 1, kind, check word low byte first. -/
theorem test_alive_frame :
    hunt [0xC3, 0x01, 0x00, 0xAF, 0xA9, 0xBF] = ([⟨0xAF, []⟩], []) := by decide +kernel

theorem test_kiosk_frames :
    kioskFrame 3 ⟨0x10, []⟩ = .hello (.kiosk 3) (.fields ())
      ∧ kioskFrame 3 ⟨0x12, [4]⟩ = .claim 3 (.fields 4)
      ∧ kioskFrame 3 ⟨0x15, [1, 0xF5, 0x01, 4, 1, 3, 0, 6, 2]⟩ =
          .submit 3 (.fields ⟨1, 501, 4, 1, 3, 6, some 2⟩)
      ∧ kioskFrame 3 ⟨0x18, [4, 1, 0x40, 0x01, 2]⟩ = .scan 3 (.fields ⟨4, 1, 320, 2⟩)
      ∧ kioskFrame 3 ⟨0x1A, [4, 1, 2]⟩ = .vote 3 (.fields ⟨4, some 2⟩)
      ∧ kioskFrame 3 ⟨0x60, [1, 9, 3, 0xAA]⟩ = .chunk (.link (.kiosk 3)) (.fields ⟨1, 9, 3, [0xAA]⟩)
      ∧ kioskFrame 3 ⟨0x24, []⟩ = .unknownKind (.kiosk 3) 0x24 := by decide

theorem test_staff_frames :
    staffFrame ⟨0x2B, [4]⟩ = .take (.fields 4)
      ∧ staffFrame ⟨0x24, [4, 1, 0xF4, 1, 20, 120, 0, 5, 0, 1, 3, 0xE8, 3, 10, 1, 7, 0]⟩ =
          .portSet (.fields ⟨4, 1, 500, 20, 120, 5, 0, 1, 3, 1000, 10, 1, 7, 0⟩)
      ∧ staffFrame ⟨0x25, [9, 200, 0, 0x3C, 0x0F, 0x2C, 1, 0xD8, 0x0E, 4, 0x80, 7, 0x38, 4, 8, 6]⟩ =
          .calibrate (.fields ⟨9, 200, 3900, 300, 3800, 4, 1920, 1080, 8, 6⟩)
      ∧ staffFrame ⟨0x28, [9, 1, 0xDC, 5, 1]⟩ = .seqSet (.fields ⟨9, 1, 1500, 1⟩)
      ∧ staffFrame ⟨0x38, []⟩ = .hubIdent (.fields ())
      ∧ staffFrame ⟨0x2B, []⟩ = .take .wrongLength
      ∧ staffFrame ⟨0x12, [4]⟩ = .unknownKind .staff 0x12 := by decide

theorem test_adapter_frames :
    deviceFrame 9 5 ⟨0xA1, [2, 0x34, 0x12, 3, 1]⟩ = some (.ident 9 ⟨2, 0x1234, 3, 1⟩)
      ∧ deviceFrame 9 5 ⟨0xA6, [1, 3, 0]⟩ = some (.printEnd 9 1 3)
      ∧ deviceFrame 9 5 ⟨0xAB, [0, 0x4C, 4, 0, 0]⟩ = some (.scanEnd 9 0 1100)
      ∧ deviceFrame 9 5 ⟨0xAC, [3, 1, 0xB8, 0x0B, 0xE8, 3, 7]⟩ =
          some (.touchMove 9 ⟨5, 3, 3000, 1000, 7⟩)
      ∧ deviceFrame 9 5 ⟨0xA7, []⟩ = some (.adapterFrameWrongLength 9 0xA7)
      ∧ deviceFrame 9 5 ⟨0xB0, [1]⟩ = some (.adapterUnknownKind 9 0xB0) := by decide

/-! ### The worked sequences of the spec, a step at a time -/

/-- The hall of the worked sequences: printer D1, scanner D4, panel D9, at a tick. -/
def hall (t : Tick) : State :=
  port 1 .printer .serving (some .ready) <| port 4 .scanner .serving (some .ready) <|
    port 9 .panel .serving (some .ready)
      { hub with tick := t, configs := Table.fill 12 defaultConfig }

/-- The calibration of case 1 of chapter 5. -/
def case1 : Calibration := ⟨200, 3900, 300, 3800, false, false, true, 1920, 1080, 8, 6⟩

def onWall (s : State) : State := onPanel 9 (fun x => { x with calibration := case1 }) s

/-- Chapter 5, cases 1 and 2, and the MOVE of the worked sequence. -/
theorem test_transform_cases :
    transform case1 3000 1000 = ⟨1452, 863, 38, false⟩ ∧ transform case1 4095 1000 = ⟨1919, 863, 39, true⟩
      ∧ transform case1 2900 1100 = ⟨1400, 832, 37, false⟩ := by decide

/-- Chapter 5, case 3: halves round up before the mirroring. -/
theorem test_transform_halves :
    let c : Calibration := ⟨0, 4, 0, 4, false, false, false, 3, 3, 1, 1⟩
    ([0, 1, 2, 3, 4].map fun x => (transform c x 0).x) = [0, 1, 1, 2, 2]
      ∧ ([0, 1, 2, 3, 4].map fun x => (transform { c with invertX := true } x 0).x) = [2, 1, 1, 0, 0] := by
  decide

/-- Chapter 6: the lookups of the caption strip. -/
theorem test_route_lookups :
    let r := ((((Table.fill 16 defaultRoute).put 0 ⟨true, .pair, 40, 47, .staff⟩).put 1
      ⟨true, .pair, 0, 0, .seqA⟩).put 2 ⟨true, .pair, 7, 7, .seqB⟩).put 3 ⟨true, .mask, 7, 7, .kiosk 20⟩
    [38, 39, 47, 7, 0].map (routeAction r) = [.holder, .kiosk 20, .staff, .seqB, .seqA] := by decide +kernel

/-- Chapter 1, tick 50,000: K3 is granted D4. -/
theorem test_claim_granted :
    (run (.claim 3 (.fields 4)) (hall 50000)).claims.get 4 =
      [⟨3, 2, 50000, .holder, false, some 1250000, some 50000, false⟩] := by decide +kernel

/-- Chapter 1, tick 95,000: K12 of class 1 goes before K7 of class 2. -/
theorem test_claim_before_worse_class :
    ((run (.claim 12 (.fields 4)) (claims 4 [held 3 (some 1250000), waiter 7 2]
      { hall 95000 with profiles := (hall 0).profiles.modify 12 fun x => { x with cls := 1 } })).claims.get
        4).map (·.kiosk) = [3, 12, 7] := by decide +kernel

/-- Chapter 1, tick 300,000: the holder's query re-arms its deadline. -/
theorem test_claim_query_rearms :
    (run (.claimQuery 3 (.fields 4)) (claims 4 [held 3 (some 1250000)] (hall 300000))).claims.get 4 =
      [held 3 (some 1500000)] := by decide +kernel

/-- Chapter 1, tick 1,500,000: K3 ends IDLE, and K12 is promoted. -/
theorem test_idle_expiry_promotes :
    ((run (.idleExpiry 4) (claims 4 [held 3 (some 1500000), waiter 12 1, waiter 7 2]
      (hall 1500000))).claims.get 4).map (fun c => (c.kiosk, c.role, c.deadline)) =
      [(12, .holder, some 2700000), (7, .waiter, none)] := by decide +kernel

/-- Chapter 2, tick 3,010,000: a TAKE waits for the scan. -/
theorem test_take_waits_for_scan :
    let t := run (.take (.fields 4)) (scanning 4 (scan (.kiosk 12) .image .scanning)
      (claims 4 [held 12 none] (hall 3010000)))
    t.takes.get 4 = ⟨.pending .scan false, none⟩
      ∧ t.staff.sending = some (.reply ⟨0x2B, .ok, .takeover (.pending .scan false)⟩ false) := by
  decide +kernel

/-- Chapter 2, tick 3,400,000: RETURN sets the shield and re-arms the holder. -/
theorem test_return_shields :
    let t := run (.giveBack (.fields 4)) (take 4 .staffHold none
      (claims 4 [{ held 12 none with suspended := true }, waiter 7 2] (hall 3400000)))
    t.takes.get 4 = ⟨.free, some 3450000⟩ ∧ t.claims.get 4 = [held 12 (some 4600000), waiter 7 2] := by
  decide +kernel

/-- Chapter 2, tick 3,450,000: the shield ends under a scan, and the take waits on. -/
theorem test_shield_expiry :
    (run (.shieldExpiry 4) (take 4 (.pending .shield false) (some 3450000)
      (scanning 4 (scan (.kiosk 12) .image .scanning) (claims 4 [held 12 none] (hall 3450000))))).takes.get 4
      = ⟨.pending .scan false, none⟩ := by decide +kernel

/-- Chapter 2, tick 20,000,000: CLOSE ends what is idle and marks the holder that scans. -/
theorem test_close_winds_down :
    let t := run (.closeHall (.fields ())) (scanning 4 (scan (.kiosk 12) .image .scanning)
      (claims 4 [held 12 none, waiter 7 2] (claims 9 [held 2 (some 21000000)] (hall 20000000))))
    t.hall = .closing ∧ (t.claims.get 4).map (fun c => (c.kiosk, c.closing)) = [(12, true)]
      ∧ t.claims.get 9 = [] := by decide +kernel

/-- Chapter 3, tick 1,000,000: job 17 starts at once. -/
theorem test_submit_starts :
    let t := run (.submit 3 (.fields ⟨1, 501, 4, 1, 3, 2, none⟩)) { hall 1000000 with nextJob := 17 }
    t.nextJob = 18
      ∧ ((t.printers.get 1).inflight.map fun j => (j.id, j.kiosk, j.state)) = some (17, 3, .starting)
      ∧ (t.kiosks.get 3).sending = some (.reply ⟨0x15, .ok, .submitted 17 .starting none⟩ false) := by
  decide +kernel

/-- Chapter 3, tick 1,300,000: a jam stalls the job that was ENDING. -/
theorem test_fault_stalls_job :
    let t := run (.fault 1 1) (printer 1 [] (some (job 17 3 .ending)) none (hall 1300000))
    t.cond 1 = .stalled ∧ (t.printers.get 1).inflight =
      some { job 17 3 .stalled with resume := some .ending, fault := some .jam, jams := 1 } := by
  decide +kernel

/-- Chapter 3, tick 1,900,000: CLEARED returns it to ENDING. -/
theorem test_cleared_resumes_job :
    let t := run (.cleared 1) (cond 1 .stalled (printer 1 []
      (some { job 17 3 .stalled with resume := some .ending, fault := some .jam, jams := 1 }) none
      (hall 1900000)))
    t.cond 1 = .serving ∧ (t.printers.get 1).inflight = some { job 17 3 .ending with jams := 1 } := by
  decide +kernel

/-- Chapter 3, tick 2,050,000: PRINT_END after CANCEL, with a gap of 2000 ms. -/
theorem test_print_end_sets_gap :
    let j := { job 17 3 .ending with
      cancelRequested := .kiosk, abortCause := some .cancel, abortSent := true }
    let s := hall 2050000
    let t := run (.printEnd 1 0 3) (printer 1 [job 18 9 .queued] (some j) none
      { s with configs := s.configs.modify 1 fun c => { c with gapMs := 2000 } })
    t.printers.get 1 = ⟨[job 18 9 .queued], none, some 2070000⟩
      ∧ (t.kiosks.get 3).sending = some (.notice ⟨.jobState
          { id := 17, tag := 7, port := 1, report := .ended .doneDespiteCancel, printed := 3, fault := none
            byStaff := false }, false⟩) := by decide +kernel

/-- Chapter 4, tick 5,000,000: the resolution is rounded down, and the deadline freezes. -/
theorem test_scan_starts :
    let t := run (.scan 12 (.fields ⟨4, 1, 320, 2⟩)) (claims 4 [held 12 (some 6000000)] (hall 5000000))
    ((t.scanners.get 4).scan.map fun x => (x.resolution, x.credit, x.state)) = some (300, 2, .starting)
      ∧ t.claims.get 4 = [held 12 none] := by decide +kernel

/-- Chapter 4: SCAN_END finds a chunk still buffered; the scan is ENDING without a result. -/
theorem test_scan_end_waits_for_chunks :
    let t := run (.scanEnd 4 0 1100) (stream 4 (push (.kiosk 12))
      (scanning 4 (scan (.kiosk 12) .image .scanning) (claims 4 [held 12 none] (hall 5000000))))
    ((t.scanners.get 4).scan.map fun x => (x.state, x.reported, x.resultGiven)) =
      some (.ending, some 1100, false) := by decide +kernel

/-- Chapter 4: a stop that comes before the end of a CODE scan discards the code. -/
theorem test_scan_stop_discards_code :
    let x := { scan (.kiosk 3) .code .scanning with code := some ⟨7, [65]⟩ }
    let t := run (.scanStop 3 (.fields 4)) (scanning 4 x (claims 4 [held 3 none] (hall 5000000)))
    ((t.scanners.get 4).scan.map fun y => (y.abortSent, y.reason, y.code, y.resultGiven)) =
      some (true, some .stopped, none, true) := by decide +kernel

/-- Chapter 5, tick 8,012,400: the first record placed after the cue carries its delay. -/
theorem test_touch_down_carries_cue :
    let t := run (.touchDown 9 ⟨8012400, 3, 3000, 1000, 9⟩) (onWall (onPanel 9
      (fun x => { x with cue := .tick 8000000 }) (claims 9 [held 2 (some 9000000)] (hall 8012400))))
    (t.panels.get 9).cue = .absent
      ∧ (t.panels.get 9).contacts =
          [⟨3, .link (.kiosk 2), .holder, true, 8012400, 1452, 863, 38, false⟩]
      ∧ (match (t.kiosks.get 2).sending with
         | some (.notice ⟨.touch r, _⟩) => r.cue
         | _ => none) = some 12400 := by decide +kernel

/-- Chapter 5, tick 8,030,000: RELEASE cuts the contact of the holder that goes. -/
theorem test_release_cuts_contacts :
    let t := run (.release 2 (.fields 9)) (contacts 9
      [⟨5, .link (.kiosk 2), .holder, true, 8013000, 1919, 863, 39, true⟩]
      (claims 9 [held 2 (some 9000000), waiter 7 2] (hall 8030000)))
    (t.panels.get 9).contacts = [⟨5, .link (.kiosk 2), .holder, false, 8013000, 1919, 863, 39, true⟩]
      ∧ (t.claims.get 9).map (fun c => (c.kiosk, c.role)) = [(7, .holder)]
      ∧ (t.kiosks.get 2).queue.map (fun i => (Item.touch? i).map fun r => (r.phase, r.cancelled, r.pressure))
          = [some (.up, true, 0), none] := by decide +kernel

/-- Chapter 6, tick 9,049,000: step B in WAIT_B matches and takes the panel. -/
theorem test_step_b_takes :
    let t := run (.touchDown 9 (⟨9049000, 5, 0, 0, 9⟩)) (trigger 9 .noticeTake (.waitB 9055000)
      (route 9 .seqB (claims 9 [held 2 (some 9900000)] (hall 9049000))))
    (t.panels.get 9).seqState = .matched ∧ t.takes.get 9 = ⟨.staffHold, none⟩
      ∧ (t.claims.get 9).map (·.suspended) = [true]
      ∧ t.staff.sending = some (.notice ⟨.attendant ⟨9, .sequence, 0, 5, 9049000, true⟩, false⟩) := by
  decide +kernel

/-- Chapter 6, tick 9,004,000: step A opens the window of 1500 ms. -/
theorem test_step_a_waits :
    ((run (.touchDown 9 ⟨9004000, 2, 0, 0, 9⟩) (trigger 9 .noticeTake .waitA (route 9 .seqA
      (hall 9004000)))).panels.get 9).seqState = .waitB 9019000 := by decide +kernel

/-- Chapter 7: a chunk of a job is taken and forwarded at once, and the stall deadline set afresh. -/
theorem test_chunk_is_forwarded :
    let t := run (.chunk (.link (.kiosk 3)) (.fields ⟨1, 0, 0, [1]⟩)) (stream 1 (pull 3)
      (printer 1 [] (some (job 17 3 .printing)) none
        (onLink (.kiosk 3) (fun u => { u with sending := some (.credit 1 4) }) (hall 1004100))))
    ((t.streams.get 1).map fun x => (x.senderCredit, x.owed, x.sinkCredit, x.buffers, x.stall)) =
      some (3, 1, 0, [], some 1104100) := by decide +kernel

/-- Chapter 8: an ALIVE heard in UNRESPONSIVE at tick 140,000. -/
theorem test_alive_when_unresponsive :
    let t := (run (.alive 1) (cond 1 .unresponsive (hall 140000))).ctls.get 1
    t.cond = .identifying ∧ t.cause = .adapterBack ∧ t.response = some 145000 ∧ t.silence = some 170000 := by
  decide +kernel

/-- Chapter 8: an ANNOUNCE on an UNUSED port is ignored, also after a reset. -/
theorem test_unused_port_is_deaf :
    (run (.announce 2) (hall 5)).ctls.get 2 = (hall 5).ctls.get 2 := by decide +kernel

/-- Chapter 9, tick 1,000,000: a vote for STANDBY starts a transition. -/
theorem test_vote_starts_transition :
    let t := run (.vote 7 (.fields ⟨4, some 2⟩)) (level 4 (some .sleep) false (hall 1000000))
    ((t.power.get 4).target, (t.power.get 4).moving) = (.standby, true)
      ∧ (t.ctls.get 4).response = some 1200000
      ∧ (t.wires.get 4).sending = some (.command (.powerSet .standby)) := by decide +kernel

/-- Chapter 9: POWER_DONE from OFF is a wake, and selection fails until the IDENT. -/
theorem test_wake_from_off :
    let t := run (.powerDone 1 3) (level 1 (some .off) true (printer 1 [job 5 5 .queued] none none
      (hall 1000000)))
    t.cond 1 = .identifying ∧ (t.ctls.get 1).cause = .wake ∧ (t.printers.get 1).inflight = none
      ∧ (t.wires.get 1).sending = some (.command .identAsk) := by decide +kernel

/-- What a HELLO's reply that is being sent says of the hall. -/
def helloHall : Option LinkFrame → Option Hall
  | some (.reply ⟨_, .ok, .helloKiosk _ _ h⟩ _) => some h
  | _ => none

/-- R173 with R40: a restart whose departure ends the last queued job of a CLOSING hall is answered in a QUIET
one; with another job left the hall stays CLOSING. -/
theorem test_hello_restart_in_closing_hall :
    let s : List Job → State := fun q => run (.hello (.kiosk 5) (.fields ()))
      (cond 1 .unresponsive (printer 1 q none none { hall 4011000 with hall := .closing }))
    let t := s [job 30 5 .queued]
    let u := s [job 30 5 .queued, job 31 6 .queued]
    t.hall = .quiet ∧ helloHall (t.kiosks.get 5).sending = some .quiet
      ∧ u.hall = .closing ∧ helloHall (u.kiosks.get 5).sending = some .closing := by decide +kernel

/-- Chapter 10, tick 4,011,000: a HELLO on an UP link is a departure and a new start. With a request outstanding
(tick 4,010,200) it is discarded. -/
theorem test_hello_restarts :
    let u := (run (.hello (.kiosk 5) (.fields ())) (busyOn (.kiosk 5) (hall 4010200))).kiosks.get 5
    let t := run (.hello (.kiosk 5) (.fields ())) (printer 1 [] (some (job 30 5 .printing)) none
      (stream 1 (pull 5) (claims 4 [held 5 none, waiter 7 2] (hall 4011000))))
    (u.overrun = true ∧ u.silence = some 4040200 ∧ u.reply = none)
      ∧ (t.kiosks.get 5).silence = some 4041000 ∧ (t.claims.get 4).map (·.kiosk) = [7] ∧ t.streams.get 1 = none
      ∧ ((t.printers.get 1).inflight.map (·.abortCause)) = some (some (.failed .kioskLost)) := by
  decide +kernel

/-- The image of R184: its length, and the header in front of its sections. -/
theorem test_image_length :
    imageLength = 1362 ∧ (imageBytes defaultSettings).take 3 = [1, 0x52, 0x05] := by decide +kernel

/-- Chapter 11: a start on an image whose header is not the one that is written. -/
theorem test_start_on_defaults :
    let t := run (.startupReadEnds (.bytes [1, 0, 0]) false) State.reset
    t.loader.outcome = some (.defaulted .checkFailed) ∧ t.loader.starting = false
      ∧ t.settings = defaultSettings := by decide +kernel

/-- Chapter 11: the end of writing with every write acknowledged. -/
theorem test_writing_ends_ok :
    let s := hall 9
    let t := run (.writingEnds true) { s with
      loader := { s.loader with save := .saving, writing := some [1, 2], memory := [9, 8, 7] } }
    t.loader.save = .idle ∧ t.loader.lastSave = some true ∧ t.loader.memory.take 2 = [1, 2]
      ∧ t.staff.sending = some (.notice ⟨.saveResult true, false⟩) := by decide +kernel

/-- R81: a code of no bytes, or of more than 64, is stored nowhere. -/
theorem test_scan_code_lengths :
    let s := scanning 4 (scan .staff .code .scanning) (hall 9)
    ([[], [65], List.replicate 65 65].map fun text =>
      ((run (.scanCode 4 1 text) s).scanners.get 4).scan.bind (·.code)) = [none, some ⟨1, [65]⟩, none] := by
  decide +kernel

/-- Chapter 8: POWER_DONE ends the long wait, and what is left of the waits is short. -/
theorem test_power_done_leaves_short_wait :
    let s := level 4 (some .standby) true (onCtl 4 (fun x =>
      { x with waits := [.powerSet, .scanStart], response := some 900000 }) (hall 100000))
    ((run (.powerDone 4 1) s).ctls.get 4).response = some 105000 := by decide +kernel

/-- A HELLO found by hunting restarts its link, and the half frame behind it is lost (R171). -/
theorem test_hunted_hello_loses_half_frame :
    let t := run (.discardedFrame (.link .staff) [0xC3, 0, 0, 0xC3, 0x01, 0x00, 0x10, 0x9D, 0xE9, 0xC3, 7])
      (hall 9)
    t.staff.rx = [] := by decide +kernel

/-- A waiting command is run before a tick; on an empty queue the counter advances (log 2). -/
theorem test_steps :
    ((stepped { hall 4294967295 with pending := [.cueEdge true 7] }).cueLevel,
      (stepped { hall 4294967295 with pending := [.cueEdge true 7] }).tick,
      (stepped (hall 4294967295)).tick) = (true, 4294967295, 0) := by decide +kernel

/-- An expiry that has fallen due waits as a command after the tick (log 2). -/
theorem test_tick_enqueues_expiry :
    (stepped (claims 4 [held 3 (some 1500000)] { hall 1499999 with
      ctls := Table.fill 12 PortCtl.reset
      kiosks := Table.fill 24 LinkUnit.reset, staff := LinkUnit.reset })).pending = [.idleExpiry 4] := by
  decide +kernel

/-! ### The hypotheses of each obligation can be met -/

theorem witness_ClaimGrantedAtOnce :
    (∃ (k : KioskId) (p : PortId) (b : Byte) (s : State), portOf b = some p ∧ Listens (.kiosk k) s ∧ MayUse
      k p claimable s ∧ s.hall = .openHall ∧ s.cond p ≠ .absent ∧ s.cond p ≠ .checking ∧ claimOf
      (s.claims.get p) k = none ∧ s.kioskClaims k < 4 ∧ s.claimCount < 48 ∧ holderOf (s.claims.get p) = none
      ∧ (s.takes.get p).state = .free) :=
  ⟨23, 11, 11, claims 3 [held 23 none] (claims 2 [held 23 none] (claims 1 [held 23 none] hub)),
    by unfold Listens MayUse Reaches; decide +kernel⟩

theorem witness_ClaimWaitsOrIsRefused :
    (∃ (k : KioskId) (p : PortId) (b : Byte) (s : State), portOf b = some p ∧ Listens (.kiosk k) s ∧ MayUse
      k p claimable s ∧ s.hall = .openHall ∧ s.cond p ≠ .absent ∧ claimOf (s.claims.get p) k = none ∧
      s.kioskClaims k < 4 ∧ s.claimCount < 48 ∧ (holderOf (s.claims.get p) ≠ none ∨ (s.takes.get p).state ≠
      .free ∨ s.cond p = .checking) ∧ ListOrdered (s.claims.get p)) ∧
    (∃ (k : KioskId) (p : PortId) (b : Byte) (s : State), portOf b = some p ∧ Listens (.kiosk k) s ∧ MayUse
      k p claimable s ∧ (s.hall ≠ .openHall ∨ s.cond p = .absent ∨ claimOf (s.claims.get p) k ≠ none ∨ 4 ≤
      s.kioskClaims k ∨ 48 ≤ s.claimCount)) :=
  ⟨⟨23, 10, 10, claims 10 [held 0 none, waiter 1 2, waiter 2 3] hub,
    by unfold Listens MayUse Reaches ListOrdered; decide +kernel⟩,
    ⟨23, 11, 11, claims 4 [held 23 none] (claims 3 [held 23 none] (claims 2 [held 23 none] (claims 1 [held
      23 none] hub))), by unfold Listens MayUse Reaches; decide +kernel⟩⟩

theorem witness_ReleaseAndIdleExpiryEndAClaim :
    (∃ (k : KioskId) (p : PortId) (b : Byte) (s : State), ∃ c, portOf b = some p ∧ Listens (.kiosk k) s ∧
      MayUse k p claimable s ∧ ListOrdered (s.claims.get p) ∧ claimOf (s.claims.get p) k = some c ∧ ownScan
      s p k = false) ∧
    (∃ (k : KioskId) (p : PortId) (b : Byte) (s : State), portOf b = some p ∧ Listens (.kiosk k) s ∧ MayUse
      k p claimable s ∧ claimOf (s.claims.get p) k = none) ∧
    (∃ (k : KioskId) (p : PortId) (b : Byte) (s : State), ∃ c x, portOf b = some p ∧ Listens (.kiosk k) s ∧
      MayUse k p claimable s ∧ s.cls p = .scanner ∧ ListOrdered (s.claims.get p) ∧ claimOf (s.claims.get p)
      k = some c ∧ c.role = .holder ∧ (s.scanners.get p).scan = some x ∧ x.requester = .kiosk k ∧
      x.abortSent = false ∧ x.state ≠ .ending) ∧
    (∃ (p : PortId) (s : State), ∃ c, ListOrdered (s.claims.get p) ∧ DeadlinesFrozen s ∧ c ∈ (s.claims.get
      p).head? ∧ c.role = .holder ∧ due s.tick c.deadline = true) ∧
    (∃ (p : PortId) (s : State), (∀ c, holderOf (s.claims.get p) = some c → due s.tick c.deadline = false)) :=
  ⟨⟨23, 10, 10, claims 10 [held 23 none, waiter 0 2] hub, held 23 none,
    by unfold Listens MayUse Reaches ListOrdered; decide +kernel⟩,
    ⟨23, 11, 11, hub, by unfold Listens MayUse Reaches; decide +kernel⟩,
    ⟨23, 11, 11, scanning 11 (scan (.kiosk 23) .image .scanning) (claims 11 [held 23 none] hub), held 23
      none, scan (.kiosk 23) .image .scanning, by unfold Listens MayUse Reaches ListOrdered; decide +kernel⟩,
    ⟨11, claims 11 [held 23 (some 1000), waiter 0 2] hub, held 23 (some 1000),
      by unfold ListOrdered DeadlinesFrozen; decide +kernel⟩,
    ⟨11, claims 11 [held 23 (some 1001)] hub, some_all (by decide +kernel)⟩⟩

theorem witness_ClaimQueriesReadTheList :
    (∃ (k : KioskId) (p : PortId) (b : Byte) (s : State), portOf b = some p ∧ Listens (.kiosk k) s ∧ MayUse
      k p claimable s ∧ ListOrdered (s.claims.get p) ∧ (s.configs.get p).inRange = true) ∧
    (∃ (p : PortId) (b : ListBody) (s : State), portOf b.port = some p ∧ Listens .staff s ∧ claimable (s.cls
      p) = true) :=
  ⟨⟨23, 11, 11, claims 11 [held 0 none, waiter 23 3] hub,
    by unfold Listens MayUse Reaches ListOrdered; decide +kernel⟩,
    ⟨11, ⟨11, 23⟩, hub, by unfold Listens; decide +kernel⟩⟩

theorem witness_TakeHoldsThePortOrWaits :
    (∃ (p : PortId) (b : Byte) (s : State), portOf b = some p ∧ Listens .staff s ∧ s.cls p ≠ .unused ∧
      (s.takes.get p).state = .free ∧ shieldRuns s p = false ∧ (s.cls p = .scanner → (s.scanners.get p).scan
      = none) ∧ (s.cls p = .printer → ∀ j ∈ (s.printers.get p).inflight, j.abortSent = false ∧ (j.state =
      .stalled ∨ j.state = .held))) ∧
    (∃ (p : PortId) (b : Byte) (s : State), portOf b = some p ∧ Listens .staff s ∧ s.cls p ≠ .unused ∧
      (s.takes.get p).state = .free ∧ shieldRuns s p = true) ∧
    (∃ (p : PortId) (b : Byte) (s : State), portOf b = some p ∧ Listens .staff s ∧ s.cls p = .scanner ∧
      (s.takes.get p).state = .free ∧ shieldRuns s p = false ∧ (s.scanners.get p).scan ≠ none) ∧
    (∃ (p : PortId) (b : Byte) (s : State), ∃ j, portOf b = some p ∧ Listens .staff s ∧ s.cls p = .printer ∧
      (s.takes.get p).state = .free ∧ shieldRuns s p = false ∧ (s.printers.get p).inflight = some j ∧
      j.abortSent = true) ∧
    (∃ (p : PortId) (b : Byte) (s : State), ∃ j, portOf b = some p ∧ Listens .staff s ∧ s.cls p = .printer ∧
      (s.takes.get p).state = .free ∧ shieldRuns s p = false ∧ (s.printers.get p).inflight = some j ∧
      j.abortSent = false ∧ j.state ≠ .stalled ∧ j.state ≠ .held) ∧
    (∃ (p : PortId) (b : Byte) (s : State), portOf b = some p ∧ Listens .staff s ∧ s.cls p ≠ .unused ∧
      (s.takes.get p).state ≠ .free) :=
  ⟨⟨0, 0, printer 0 [] (some (stalledJob 4 0)) none hub, by unfold Listens; decide +kernel⟩,
    ⟨11, 11, take 11 .free (some 1001) hub, by unfold Listens; decide +kernel⟩,
    ⟨11, 11, scanning 11 (scan .staff .code .starting) hub, by unfold Listens; decide +kernel⟩,
    ⟨0, 0, printer 0 [] (some { job 4 0 .printing with abortSent := true }) none hub,
      { job 4 0 .printing with abortSent := true }, by unfold Listens; decide +kernel⟩,
    ⟨0, 0, printer 0 [] (some (job 4 0 .ending)) none hub, job 4 0 .ending,
      by unfold Listens; decide +kernel⟩,
    ⟨11, 11, take 11 (.pending .scan false) none hub, by unfold Listens; decide +kernel⟩⟩

theorem witness_ReturnAndShieldFreeThePort :
    (∃ (p : PortId) (b : Byte) (s : State), portOf b = some p ∧ Listens .staff s ∧ s.cls p ≠ .unused ∧
      (s.takes.get p).state = .staffHold ∧ ListOrdered (s.claims.get p) ∧ (s.configs.get p).inRange = true) ∧
    (∃ (p : PortId) (b : Byte) (s : State), portOf b = some p ∧ Listens .staff s ∧ s.cls p ≠ .unused ∧
      (s.takes.get p).state ≠ .free ∧ (s.takes.get p).state ≠ .staffHold ∧ ListOrdered (s.claims.get p)) ∧
    (∃ (p : PortId) (b : Byte) (s : State), portOf b = some p ∧ Listens .staff s ∧ s.cls p ≠ .unused ∧
      (s.takes.get p).state = .free) ∧
    (∃ (p : PortId) (s : State), due s.tick (s.takes.get p).shield = true ∧ (s.takes.get p).state ≠ .pending
      .shield false ∧ (s.takes.get p).state ≠ .pending .shield true) ∧
    (∃ (p : PortId) (s : State), due s.tick (s.takes.get p).shield = true ∧ (s.takes.get p).state = .pending
      .shield false ∧ (s.scanners.get p).scan = none ∧ (s.printers.get p).inflight = none) ∧
    (∃ (p : PortId) (s : State), due s.tick (s.takes.get p).shield = true ∧ s.cls p = .scanner ∧
      (s.takes.get p).state = .pending .shield false ∧ (s.scanners.get p).scan ≠ none) ∧
    (∃ (p : PortId) (s : State), due s.tick (s.takes.get p).shield = false) :=
  ⟨⟨11, 11, take 11 .staffHold none (claims 11 [held 3 none] hub),
    by unfold Listens ListOrdered; decide +kernel⟩,
    ⟨0, 0, take 0 (.pending .held true) none hub, by unfold Listens ListOrdered; decide +kernel⟩,
    ⟨11, 11, hub, by unfold Listens; decide +kernel⟩,
    ⟨11, take 11 .free (some 1000) hub, by decide +kernel⟩,
    ⟨0, take 0 (.pending .shield false) (some 1000) hub, by decide +kernel⟩,
    ⟨11, take 11 (.pending .shield false) (some 1000) (scanning 11 (scan (.kiosk 2) .code .starting) hub),
      by decide +kernel⟩,
    ⟨11, take 11 .free (some 1001) hub, by decide +kernel⟩⟩

theorem witness_CloseWindsTheHallDown :
    (∃ (s : State), Listens .staff s ∧ s.hall = .openHall ∧ (∀ p, ListOrdered (s.claims.get p))) ∧
    (∃ (s : State), Listens .staff s ∧ s.hall ≠ .openHall) :=
  ⟨⟨busy, by unfold Listens ListOrdered; decide +kernel⟩,
    ⟨{ hub with hall := .closing }, by unfold Listens; decide +kernel⟩⟩

theorem witness_OpenBringsTheHallBack :
    (∃ (s : State), Listens .staff s ∧ s.hall ≠ .openHall ∧ s.loader.save ≠ .loading ∧ (∀ p, ListOrdered
      (s.claims.get p))) ∧
    (∃ (s : State), Listens .staff s ∧ s.loader.save = .loading) ∧
    (∃ (s : State), Listens .staff s ∧ s.loader.save ≠ .loading ∧ s.hall = .openHall) :=
  ⟨⟨{ hub with hall := .quiet }, by unfold Listens ListOrdered; decide +kernel⟩,
    ⟨{ hub with hall := .quiet, loader := { hub.loader with save := .loading } },
      by unfold Listens; decide +kernel⟩,
    ⟨hub, by unfold Listens; decide +kernel⟩⟩

theorem witness_FreshJobIds :
    (∃ (s : State), s.jobCount ≤ 64 ∧ JobIdsUnique s) ∧
    (∃ (k : KioskId) (p : PortId) (b : SubmitBody) (s : State), portOf b.port = some p ∧ Listens (.kiosk k)
      s ∧ MayUse k p printable s ∧ s.hall = .openHall ∧ s.cond p ≠ .absent ∧ b.pages ≠ 0 ∧ (∀ y ∈ b.tray,
      y.toNat ≤ 3) ∧ s.kioskJobs k < 4 ∧ s.jobCount < 64 ∧ JobIdsUnique s) ∧
    (∃ (s : State) (t : State), (exec .powerOn s = .next t ∨ exec .resetLine s = .next t ∨ (Listens .staff s
      ∧ exec (.hubReset (.fields ())) s = .next t))) ∧
    (∃ (a : MemoryAnswer) (s : State) (t : State), exec (.loadReadEnds a) s = .next t) ∧
    (∃ (c : Instr) (s : State) (t : State), JobsBounded s ∧ JobIdsUnique s ∧ exec c s = .next t) :=
  ⟨⟨busy, by unfold JobIdsUnique; decide +kernel⟩,
    ⟨23, 0, ⟨0, 7, 0, 1, 1, 4, some 3⟩, { hub with nextJob := 4095 },
      by unfold Listens MayUse Reaches JobIdsUnique; decide +kernel⟩,
    ⟨busy, run .powerOn busy, .inl rfl⟩,
    ⟨.silent, busy, run (.loadReadEnds .silent) busy, rfl⟩,
    ⟨.save (.fields ()), busy, run (.save (.fields ())) busy, busy_safe.2.2.2.2.2.1,
      busy_safe.2.2.2.2.2.2.1, rfl⟩⟩

theorem witness_SubmitQueuesStartsOrIsRefused :
    (∃ (k : KioskId) (p : PortId) (b : SubmitBody) (s : State), portOf b.port = some p ∧ Listens (.kiosk k)
      s ∧ MayUse k p printable s ∧ s.hall = .openHall ∧ s.cond p ≠ .absent ∧ b.pages ≠ 0 ∧ (∀ y ∈ b.tray,
      y.toNat ≤ 3) ∧ s.kioskJobs k < 4 ∧ s.jobCount < 64 ∧ JobIdsUnique s ∧ maySelect s p = false) ∧
    (∃ (k : KioskId) (p : PortId) (b : SubmitBody) (s : State), portOf b.port = some p ∧ Listens (.kiosk k)
      s ∧ MayUse k p printable s ∧ s.hall = .openHall ∧ s.cond p ≠ .absent ∧ b.pages ≠ 0 ∧ (∀ y ∈ b.tray,
      y.toNat ≤ 3) ∧ s.kioskJobs k < 4 ∧ s.jobCount < 64 ∧ JobIdsUnique s ∧ maySelect s p = true ∧
      (s.printers.get p).queue = []) ∧
    (∃ (k : KioskId) (p : PortId) (b : SubmitBody) (s : State), portOf b.port = some p ∧ Listens (.kiosk k)
      s ∧ MayUse k p printable s ∧ (s.hall ≠ .openHall ∨ s.cond p = .absent ∨ b.pages = 0 ∨ (∃ y ∈ b.tray, 3
      < y.toNat) ∨ 4 ≤ s.kioskJobs k ∨ 64 ≤ s.jobCount)) :=
  ⟨⟨23, 0, ⟨0, 7, 0, 1, 1, 4, some 3⟩, cond 0 .stalled hub,
    by unfold Listens MayUse Reaches JobIdsUnique; decide +kernel⟩,
    ⟨23, 0, ⟨0, 7, 0, 1, 1, 4, some 3⟩, hub, by unfold Listens MayUse Reaches JobIdsUnique; decide +kernel⟩,
    ⟨23, 0, ⟨0, 7, 0, 1, 0, 0, none⟩, hub, by unfold Listens MayUse Reaches; decide +kernel⟩⟩

theorem witness_CancelAndDropByState :
    (∃ (k : KioskId) (p : PortId) (id : Half) (s : State), ∃ j, Listens (.kiosk k) s ∧ (s.profiles.get
      k).admitted = true ∧ JobsBounded s ∧ JobIdsUnique s ∧ j ∈ (s.printers.get p).queue ∧ j.id = id.toNat ∧
      j.kiosk = k) ∧
    (∃ (p : PortId) (id : Half) (s : State), ∃ j, Listens .staff s ∧ JobsBounded s ∧ JobIdsUnique s ∧ j ∈
      (s.printers.get p).queue ∧ j.id = id.toNat) ∧
    (∃ (k : KioskId) (p : PortId) (id : Half) (s : State), ∃ j, Listens (.kiosk k) s ∧ (s.profiles.get
      k).admitted = true ∧ JobsBounded s ∧ JobIdsUnique s ∧ (s.printers.get p).inflight = some j ∧ j.id =
      id.toNat ∧ j.kiosk = k ∧ j.abortSent = false) ∧
    (∃ (p : PortId) (id : Half) (s : State), ∃ j, Listens .staff s ∧ JobsBounded s ∧ JobIdsUnique s ∧
      (s.printers.get p).inflight = some j ∧ j.id = id.toNat ∧ j.abortSent = false) ∧
    (∃ (k : KioskId) (id : Half) (s : State), Listens (.kiosk k) s ∧ (s.profiles.get k).admitted = true ∧ (∀
      p, ∀ j ∈ Printer.jobs (s.printers.get p), j.id = id.toNat → j.kiosk ≠ k)) ∧
    (∃ (id : Half) (s : State), Listens .staff s ∧ (∀ p, ∀ j ∈ Printer.jobs (s.printers.get p), j.id ≠
      id.toNat)) :=
  ⟨⟨23, 0, 5, printer 0 [job 5 23 .queued] (some (job 4095 0 .printing)) none hub, job 5 23 .queued,
    by unfold Listens JobsBounded JobIdsUnique; decide +kernel⟩,
    ⟨0, 5, printer 0 [job 5 23 .queued] (some (job 4095 0 .printing)) none hub, job 5 23 .queued,
      by unfold Listens JobsBounded JobIdsUnique; decide +kernel⟩,
    ⟨0, 0, 4095, printer 0 [job 5 23 .queued] (some (job 4095 0 .printing)) none hub, job 4095 0 .printing,
      by unfold Listens JobsBounded JobIdsUnique; decide +kernel⟩,
    ⟨0, 4095, printer 0 [job 5 23 .queued] (some (job 4095 0 .printing)) none hub, job 4095 0 .printing,
      by unfold Listens JobsBounded JobIdsUnique; decide +kernel⟩,
    ⟨23, 4095, printer 0 [job 5 23 .queued] (some (job 4095 0 .printing)) none hub,
      by unfold Listens; decide +kernel⟩,
    ⟨6, printer 0 [job 5 23 .queued] (some (job 4095 0 .printing)) none hub,
      by unfold Listens; decide +kernel⟩⟩

theorem witness_JobQueriesReadTheQueue :
    (∃ (k : KioskId) (p : PortId) (id : Half) (s : State), ∃ j, Listens (.kiosk k) s ∧ (s.profiles.get
      k).admitted = true ∧ JobsBounded s ∧ JobIdsUnique s ∧ j ∈ Printer.jobs (s.printers.get p) ∧ j.id =
      id.toNat ∧ j.kiosk = k) ∧
    (∃ (p : PortId) (b : ListBody) (s : State), portOf b.port = some p ∧ Listens .staff s ∧ s.cls p =
      .printer) :=
  ⟨⟨0, 0, 4095, printer 0 [job 5 23 .queued] (some (job 4095 0 .printing)) none hub, job 4095 0 .printing,
    by unfold Listens JobsBounded JobIdsUnique; decide +kernel⟩,
    ⟨0, ⟨0, 63⟩, hub, by unfold Listens; decide +kernel⟩⟩

theorem witness_PrinterReportsAreTaken :
    (∃ (p : PortId) (s : State), ∃ j, Attends p s ∧ s.cls p = .printer ∧ (s.printers.get p).inflight = some
      j ∧ j.abortSent = false ∧ j.state = .starting) ∧
    (∃ (p : PortId) (s : State), ∃ j, Attends p s ∧ s.cls p = .printer ∧ (s.printers.get p).inflight = some
      j ∧ j.abortSent = false ∧ (j.state = .stalled ∨ j.state = .held) ∧ j.resume = some .starting) ∧
    (∃ (p : PortId) (s : State), Attends p s ∧ (s.cls p = .printer → ∀ j ∈ (s.printers.get p).inflight,
      j.abortSent = true ∨ j.state = .printing ∨ j.state = .ending ∨ (j.state ≠ .starting ∧ j.resume ≠ some
      .starting))) ∧
    (∃ (p : PortId) (n : Half) (s : State), ∃ j, Attends p s ∧ s.cls p = .printer ∧ (s.printers.get
      p).inflight = some j ∧ min 9999 n.toNat ≠ j.printed) ∧
    (∃ (p : PortId) (n : Half) (s : State), Attends p s ∧ (s.cls p = .printer → ∀ j ∈ (s.printers.get
      p).inflight, min 9999 n.toNat = j.printed)) ∧
    (∃ (p : PortId) (s : State), Attends p s ∧ s.cls p = .printer ∧ (s.takes.get p).state = .pending .held
      true) ∧
    (∃ (p : PortId) (s : State), Attends p s ∧ (s.cls p = .printer → (s.takes.get p).state ≠ .pending .held
      true)) :=
  ⟨⟨0, printer 0 [] (some (job 4 0 .starting)) none hub, job 4 0 .starting,
    by unfold Attends; decide +kernel⟩,
    ⟨0, cond 0 .stalled (printer 0 [] (some
      { job 4 0 .printing with state := .stalled, resume := some .starting }) none hub),
      { job 4 0 .printing with state := .stalled, resume := some .starting },
      by unfold Attends; decide +kernel⟩,
    ⟨0, printer 0 [] (some (job 4 0 .printing)) none hub, by unfold Attends; decide +kernel⟩,
    ⟨0, 65535, printer 0 [] (some (job 4 0 .printing)) none hub, job 4 0 .printing,
      by unfold Attends; decide +kernel⟩,
    ⟨0, 65535, printer 0 [] (some { job 4 0 .printing with printed := 9999 }) none hub,
      by unfold Attends; decide +kernel⟩,
    ⟨0, take 0 (.pending .held true) none (printer 0 [] (some { job 4 0 .printing with holdSent := true })
      none hub), by unfold Attends; decide +kernel⟩,
    ⟨0, hub, by unfold Attends; decide +kernel⟩⟩

theorem witness_PrintEndEndsTheJob :
    (∃ (p : PortId) (s : State), ∃ j, Attends p s ∧ s.cls p = .printer ∧ (∀ h, (s.takes.get p).state ≠
      .pending .held h ∧ (s.takes.get p).state ≠ .pending .job h) ∧ ((s.configs.get p).gapMs ≠ 0 ∨
      (s.takes.get p).state ≠ .free ∨ s.cond p ≠ .serving ∨ (s.power.get p).reached ≠ some .ready ∨
      (s.printers.get p).queue = []) ∧ (s.printers.get p).inflight = some j) ∧
    (∃ (p : PortId) (s : State), ∃ j i, Attends p s ∧ s.cls p = .printer ∧ (s.takes.get p).state = .free ∧
      (s.configs.get p).gapMs = 0 ∧ s.cond p = .serving ∧ (s.power.get p).reached = some .ready ∧
      (s.printers.get p).inflight = some j ∧ (servingOrder (s.configs.get p).queueMode (s.printers.get
      p).queue).head? = some i) ∧
    (∃ (p : PortId) (w : Waiting) (h : Bool) (s : State), ∃ j, Attends p s ∧ s.cls p = .printer ∧
      (s.takes.get p).state = .pending w h ∧ (w = .held ∨ w = .job) ∧ (s.printers.get p).inflight = some j) ∧
    (∃ (p : PortId) (s : State), Attends p s ∧ (s.cls p = .printer → (s.printers.get p).inflight = none)) ∧
    (∃ (p : PortId) (s : State), ∃ i, due s.tick (s.printers.get p).gap = true ∧ (s.printers.get p).inflight
      = none ∧ s.cond p = .serving ∧ (s.power.get p).reached = some .ready ∧ (s.takes.get p).state = .free ∧
      (servingOrder (s.configs.get p).queueMode (s.printers.get p).queue).head? = some i) ∧
    (∃ (p : PortId) (s : State), due s.tick (s.printers.get p).gap = true ∧ ((s.printers.get p).inflight ≠
      none ∨ s.cond p ≠ .serving ∨ (s.power.get p).reached ≠ some .ready ∨ (s.takes.get p).state ≠ .free ∨
      (s.printers.get p).queue = [])) ∧
    (∃ (p : PortId) (s : State), due s.tick (s.printers.get p).gap = false) :=
  ⟨⟨0, printer 0 [] (some (job 4 0 .ending)) none
    { hub with configs := hub.configs.modify 0 fun x => { x with gapMs := 100 } }, job 4 0 .ending,
    by unfold Attends; decide +kernel⟩,
    ⟨0, printer 0 [job 5 1 .queued] (some (job 4 0 .ending)) none hub, job 4 0 .ending, job 5 1 .queued,
      by unfold Attends; decide +kernel⟩,
    ⟨0, .job, false, take 0 (.pending .job false) none (printer 0 [] (some
      { job 4 0 .printing with abortSent := true }) none hub), { job 4 0 .printing with abortSent := true },
      by unfold Attends; decide +kernel⟩,
    ⟨0, hub, by unfold Attends; decide +kernel⟩,
    ⟨0, printer 0 [job 5 1 .queued] none (some 1000) hub, job 5 1 .queued, by decide +kernel⟩,
    ⟨0, printer 0 [] none (some 1000) hub, by decide +kernel⟩,
    ⟨0, printer 0 [] none (some 1001) hub, by decide +kernel⟩⟩

theorem witness_FaultStallsPortAndJob :
    (∃ (p : PortId) (s : State), Attends p s ∧ s.cond p = .serving ∧ s.checkRunning p = false ∧ (s.takes.get
      p).state ≠ .pending .held false ∧ (s.takes.get p).state ≠ .pending .held true) ∧
    (∃ (p : PortId) (s : State), Attends p s ∧ s.cond p = .stalled ∧ (∀ j ∈ (s.printers.get p).inflight,
      j.state = .stalled ∨ j.state = .held)) ∧
    (∃ (p : PortId) (s : State), Attends p s ∧ s.cond p = .checking ∧ (s.printers.get p).inflight = none) ∧
    (∃ (p : PortId) (s : State), Attends p s ∧ (s.cond p = .identifying ∨ s.cond p = .resetting) ∧ (s.cls p
      = .printer → (s.printers.get p).inflight = none)) :=
  ⟨⟨0, printer 0 [] (some (job 4 0 .printing)) none hub, by unfold Attends; decide +kernel⟩,
    ⟨0, cond 0 .stalled (printer 0 [] (some (stalledJob 4 0)) none hub), by unfold Attends; decide +kernel⟩,
    ⟨11, check 11 .running (some .test) (cond 11 .checking hub), by unfold Attends; decide +kernel⟩,
    ⟨11, cond 11 .resetting hub, by unfold Attends; decide +kernel⟩⟩

theorem witness_ClearedResumesOrGivesUp :
    (∃ (p : PortId) (s : State), ∃ j, Attends p s ∧ s.cond p = .stalled ∧ s.checkRunning p = false ∧ s.cls p
      = .printer ∧ (s.printers.get p).inflight = some j ∧ j.state = .stalled ∧ (j.abortSent = true ∨ (j.jams
      ≤ (s.configs.get p).jamLimit ∧ (s.configs.get p).autoResume = true))) ∧
    (∃ (p : PortId) (s : State), ∃ j, Attends p s ∧ s.cond p = .stalled ∧ s.checkRunning p = false ∧ s.cls p
      = .printer ∧ (s.printers.get p).inflight = some j ∧ j.state = .stalled ∧ j.abortSent = false ∧
      ((s.configs.get p).jamLimit < j.jams ∨ (s.configs.get p).autoResume = false)) ∧
    (∃ (p : PortId) (s : State), Attends p s ∧ s.cond p = .stalled ∧ s.checkRunning p = false ∧
      (s.printers.get p).inflight = none ∧ (s.printers.get p).queue = []) ∧
    (∃ (p : PortId) (s : State), Attends p s ∧ (s.cond p = .identifying ∨ s.cond p = .serving ∨ s.cond p =
      .resetting) ∧ (s.cls p = .printer → (s.printers.get p).inflight = none)) :=
  ⟨⟨0, cond 0 .stalled (printer 0 [] (some { stalledJob 4 0 with jams := 3 }) none hub),
    { stalledJob 4 0 with jams := 3 }, by unfold Attends; decide +kernel⟩,
    ⟨0, cond 0 .stalled (printer 0 [] (some { stalledJob 4 0 with jams := 4 }) none hub),
      { stalledJob 4 0 with jams := 4 }, by unfold Attends; decide +kernel⟩,
    ⟨11, cond 11 .stalled hub, by unfold Attends; decide +kernel⟩,
    ⟨11, cond 11 .identifying hub, by unfold Attends; decide +kernel⟩⟩

theorem witness_ScanStartsOrIsRefused :
    (∃ (k : KioskId) (p : PortId) (b : ScanBody) (m : ScanMode) (s : State), portOf b.port = some p ∧
      Listens (.kiosk k) s ∧ MayUse k p scannable s ∧ s.hall = .openHall ∧ scanModeOf b.mode = some m ∧
      ListOrdered (s.claims.get p) ∧ (∀ c, holderOf (s.claims.get p) = some c → c.suspended = false) ∧
      s.holder p = some k ∧ s.cond p = .serving ∧ (s.power.get p).reached = some .ready ∧ (s.scanners.get
      p).scan = none) ∧
    (∃ (p : PortId) (b : ScanBody) (m : ScanMode) (s : State), portOf b.port = some p ∧ Listens .staff s ∧
      s.cls p = .scanner ∧ scanModeOf b.mode = some m ∧ (s.takes.get p).state = .staffHold ∧ s.cond p =
      .serving ∧ (s.power.get p).reached = some .ready ∧ (s.scanners.get p).scan = none) ∧
    (∃ (k : KioskId) (p : PortId) (b : ScanBody) (s : State), portOf b.port = some p ∧ Listens (.kiosk k) s
      ∧ MayUse k p scannable s ∧ (s.hall ≠ .openHall ∨ scanModeOf b.mode = none ∨ s.holder p ≠ some k ∨
      (holderOf (s.claims.get p)).any (·.suspended) = true ∨ s.cond p ≠ .serving ∨ (s.power.get p).reached ≠
      some .ready ∨ (s.scanners.get p).scan ≠ none)) ∧
    (∃ (p : PortId) (b : ScanBody) (s : State), portOf b.port = some p ∧ Listens .staff s ∧ s.cls p =
      .scanner ∧ (scanModeOf b.mode = none ∨ (s.takes.get p).state ≠ .staffHold ∨ s.cond p ≠ .serving ∨
      (s.power.get p).reached ≠ some .ready ∨ (s.scanners.get p).scan ≠ none)) :=
  ⟨⟨23, 11, ⟨11, 1, 601, 5⟩, .image, claims 11 [held 23 none] hub, by decide +kernel,
    by unfold Listens; decide +kernel, (by unfold MayUse Reaches; decide +kernel), by decide +kernel,
    by decide +kernel, (by unfold ListOrdered; decide +kernel), some_all (by decide +kernel),
    by decide +kernel⟩,
    ⟨11, ⟨11, 0, 99, 0⟩, .code, take 11 .staffHold none hub, by unfold Listens; decide +kernel⟩,
    ⟨23, 11, ⟨11, 2, 100, 1⟩, claims 11 [held 23 none] hub,
      by unfold Listens MayUse Reaches; decide +kernel⟩,
    ⟨11, ⟨11, 1, 100, 1⟩, hub, by unfold Listens; decide +kernel⟩⟩

theorem witness_ScanStopAbortsTheScan :
    (∃ (k : KioskId) (p : PortId) (b : Byte) (s : State), ∃ x, portOf b = some p ∧ Listens (.kiosk k) s ∧
      MayUse k p scannable s ∧ (∀ c, holderOf (s.claims.get p) = some c → c.suspended = false) ∧ s.holder p
      = some k ∧ (s.scanners.get p).scan = some x ∧ x.requester = .kiosk k ∧ x.abortSent = false ∧ x.state ≠
      .ending) ∧
    (∃ (k : KioskId) (p : PortId) (b : Byte) (s : State), ∃ x, portOf b = some p ∧ Listens (.kiosk k) s ∧
      MayUse k p scannable s ∧ ListOrdered (s.claims.get p) ∧ (∀ c, holderOf (s.claims.get p) = some c →
      c.suspended = false ∧ c.closing = false) ∧ s.holder p = some k ∧ (s.takes.get p).state = .free ∧
      (s.scanners.get p).scan = some x ∧ x.requester = .kiosk k ∧ x.abortSent = false ∧ x.state = .ending) ∧
    (∃ (k : KioskId) (p : PortId) (b : Byte) (s : State), portOf b = some p ∧ Listens (.kiosk k) s ∧ MayUse
      k p scannable s ∧ (s.holder p ≠ some k ∨ (holderOf (s.claims.get p)).any (·.suspended) = true ∨ ∀ x ∈
      (s.scanners.get p).scan, x.requester ≠ .kiosk k ∨ x.abortSent = true)) ∧
    (∃ (p : PortId) (b : Byte) (s : State), ∃ x, portOf b = some p ∧ Listens .staff s ∧ s.cls p = .scanner ∧
      (s.takes.get p).state = .staffHold ∧ (s.scanners.get p).scan = some x ∧ x.requester = .staff ∧
      x.abortSent = false ∧ x.state ≠ .ending) ∧
    (∃ (p : PortId) (b : Byte) (s : State), ∃ x, portOf b = some p ∧ Listens .staff s ∧ s.cls p = .scanner ∧
      (s.takes.get p).state = .staffHold ∧ (s.scanners.get p).scan = some x ∧ x.requester = .staff ∧
      x.abortSent = false ∧ x.state = .ending) ∧
    (∃ (p : PortId) (b : Byte) (s : State), portOf b = some p ∧ Listens .staff s ∧ s.cls p = .scanner ∧
      ((s.takes.get p).state ≠ .staffHold ∨ ∀ x ∈ (s.scanners.get p).scan, x.requester ≠ .staff ∨
      x.abortSent = true)) :=
  ⟨⟨23, 11, 11, scanning 11 (scan (.kiosk 23) .image .scanning) (claims 11 [held 23 none] hub), scan (.kiosk
    23) .image .scanning, by decide +kernel, by unfold Listens; decide +kernel,
    (by unfold MayUse Reaches; decide +kernel), some_all (by decide +kernel), by decide +kernel⟩,
    ⟨23, 11, 11, scanning 11 (scan (.kiosk 23) .image .ending) (claims 11 [held 23 none] hub), scan (.kiosk
      23) .image .ending, by decide +kernel, by unfold Listens; decide +kernel,
      (by unfold MayUse Reaches; decide +kernel), by unfold ListOrdered; decide +kernel, some_all
      (by decide +kernel), by decide +kernel⟩,
    ⟨23, 11, 11, claims 11 [held 23 none] hub, by unfold Listens MayUse Reaches; decide +kernel⟩,
    ⟨11, 11, scanning 11 (scan .staff .code .starting) (take 11 .staffHold none hub), scan .staff .code
      .starting, by unfold Listens; decide +kernel⟩,
    ⟨11, 11, scanning 11 (scan .staff .image .ending) (take 11 .staffHold none hub), scan .staff .image
      .ending, by unfold Listens; decide +kernel⟩,
    ⟨11, 11, take 11 .staffHold none hub, by unfold Listens; decide +kernel⟩⟩

theorem witness_ScanFramesAreTaken :
    (∃ (p : PortId) (s : State), ∃ x, Attends p s ∧ s.cls p = .scanner ∧ (s.scanners.get p).scan = some x ∧
      x.state = .starting ∧ x.abortSent = false) ∧
    (∃ (p : PortId) (s : State), Attends p s ∧ (s.cls p = .scanner → ∀ x ∈ (s.scanners.get p).scan, x.state
      ≠ .starting ∨ x.abortSent = true)) ∧
    (∃ (p : PortId) (text : List Byte) (s : State), ∃ x, Attends p s ∧ s.cls p = .scanner ∧ 1 ≤ text.length
      ∧ text.length ≤ 64 ∧ (s.scanners.get p).scan = some x ∧ x.mode = .code ∧ x.state = .scanning ∧
      x.abortSent = false) ∧
    (∃ (p : PortId) (text : List Byte) (s : State), Attends p s ∧ (s.cls p = .scanner → 1 ≤ text.length →
      text.length ≤ 64 → ∀ x ∈ (s.scanners.get p).scan, x.mode ≠ .code ∨ x.state ≠ .scanning ∨ x.abortSent =
      true)) ∧
    (∃ (p : PortId) (f : Byte) (s : State), Attends p s ∧ s.cls p = .scanner ∧ f.getLsbD 0 ≠ (s.scanners.get
      p).document) ∧
    (∃ (p : PortId) (f : Byte) (s : State), Attends p s ∧ (s.cls p = .scanner → f.getLsbD 0 =
      (s.scanners.get p).document)) :=
  ⟨⟨11, scanning 11 (scan .staff .code .starting) hub, scan .staff .code .starting,
    by unfold Attends; decide +kernel⟩,
    ⟨11, hub, by unfold Attends; decide +kernel⟩,
    ⟨11, [65], scanning 11 (scan .staff .code .scanning) hub, scan .staff .code .scanning,
      by unfold Attends; decide +kernel⟩,
    ⟨11, [65], hub, by unfold Attends; decide +kernel⟩,
    ⟨11, 255, hub, by unfold Attends; decide +kernel⟩,
    ⟨11, 254, hub, by unfold Attends; decide +kernel⟩⟩

theorem witness_ScanEndEndsTheScan :
    (∃ (p : PortId) (s : State), ∃ x, Attends p s ∧ s.cls p = .scanner ∧ (∀ c, holderOf (s.claims.get p) =
      some c → c.closing = false) ∧ (∀ h, (s.takes.get p).state ≠ .pending .scan h) ∧ (s.scanners.get
      p).scan = some x ∧ x.abortSent = true) ∧
    (∃ (p : PortId) (o : Byte) (s : State), ∃ x, Attends p s ∧ s.cls p = .scanner ∧ (∀ c, holderOf
      (s.claims.get p) = some c → c.closing = false) ∧ (∀ h, (s.takes.get p).state ≠ .pending .scan h) ∧
      (s.scanners.get p).scan = some x ∧ x.abortSent = false ∧ x.reason = none ∧ LeavesNow s p x o) ∧
    (∃ (p : PortId) (o : Byte) (h : Bool) (s : State), ∃ x, Attends p s ∧ s.cls p = .scanner ∧ (∀ c,
      holderOf (s.claims.get p) = some c → c.closing = false) ∧ (s.takes.get p).state = .pending .scan h ∧
      (s.scanners.get p).scan = some x ∧ x.abortSent = false ∧ x.reason = none ∧ LeavesNow s p x o) ∧
    (∃ (p : PortId) (o : Byte) (s : State), ∃ c x, Attends p s ∧ s.cls p = .scanner ∧ s.hall ≠ .openHall ∧
      ListOrdered (s.claims.get p) ∧ holderOf (s.claims.get p) = some c ∧ c.closing = true ∧ (s.scanners.get
      p).scan = some x ∧ x.requester = .kiosk c.kiosk ∧ x.abortSent = false ∧ x.reason = none ∧ LeavesNow s
      p x o) ∧
    (∃ (p : PortId) (s : State), ∃ x y, Attends p s ∧ s.cls p = .scanner ∧ (s.scanners.get p).scan = some x
      ∧ x.abortSent = false ∧ x.mode = .image ∧ x.state = .scanning ∧ s.streams.get p = some y ∧ y.buffers ≠
      []) ∧
    (∃ (p : PortId) (s : State), ∃ x, Attends p s ∧ s.cls p = .scanner ∧ (s.scanners.get p).scan = some x ∧
      x.abortSent = false ∧ x.mode = .image ∧ x.state = .ending) ∧
    (∃ (p : PortId) (s : State), Attends p s ∧ (s.cls p = .scanner → (s.scanners.get p).scan = none)) :=
  ⟨⟨11, scanning 11 (aborted (scan (.kiosk 23) .image .scanning)) (claims 11 [held 23 none] hub), aborted
    (scan (.kiosk 23) .image .scanning), by unfold Attends; decide +kernel, by decide +kernel, some_all
    (by decide +kernel), by decide +kernel⟩,
    ⟨11, 1, scanning 11 (scan (.kiosk 23) .image .scanning) (claims 11 [held 23 none] hub), scan (.kiosk 23)
      .image .scanning, by unfold Attends; decide +kernel, by decide +kernel, some_all (by decide +kernel),
      by unfold LeavesNow; decide +kernel⟩,
    ⟨11, 0, false, take 11 (.pending .scan false) none (scanning 11 (scan (.kiosk 23) .code .scanning)
      (claims 11 [held 23 none] hub)), scan (.kiosk 23) .code .scanning, by unfold Attends; decide +kernel,
      by decide +kernel, some_all (by decide +kernel), by unfold LeavesNow; decide +kernel⟩,
    ⟨11, 0,
      { scanning 11 (scan (.kiosk 23) .code .scanning) (claims 11 [{ held 23 none with closing := true }] hub) with hall := .closing },
      { held 23 none with closing := true }, scan (.kiosk 23) .code .scanning,
      by unfold Attends ListOrdered LeavesNow; decide +kernel⟩,
    ⟨11, busy, scan (.kiosk 2) .image .scanning, push (.kiosk 2), by unfold Attends; decide +kernel⟩,
    ⟨11, scanning 11 (scan (.kiosk 23) .image .ending) hub, scan (.kiosk 23) .image .ending,
      by unfold Attends; decide +kernel⟩,
    ⟨11, hub, by unfold Attends; decide +kernel⟩⟩

theorem witness_TransformPlacesEveryTouch :
    (∃ (c : Calibration), c.inRange = true) :=
  ⟨{ defaultCalibration with xMin := 4094, cols := 16, rows := 16 }, by decide +kernel⟩

theorem witness_RouteEntriesMatchByType :
    (∃ (z : Nat), z ≤ 255) :=
  ⟨255, by decide +kernel⟩

theorem witness_TouchDownIsPinned :
    (∃ (p : PortId) (b : TouchBody) (id : Fin 16) (s : State) (a : RouteAction) (d : Dest) (v : Via),
      Accepts p b id s ∧ (∀ c ∈ (s.panels.get p).contacts, c.id ≠ id) ∧ (s.panels.get p).contacts.length <
      10 ∧ Decides (s.panels.get p).routes (touchAt s p b).zone a ∧ Leads s p d v a) ∧
    (∃ (p : PortId) (b : TouchBody) (id : Fin 16) (s : State), Accepts p b id s ∧ (∀ c ∈ (s.panels.get
      p).contacts, c.id ≠ id) ∧ (s.panels.get p).contacts.length < 10 ∧ Decides (s.panels.get p).routes
      (touchAt s p b).zone .staff ∧ (s.link .staff).queue.length < 32) ∧
    (∃ (p : PortId) (b : TouchBody) (id : Fin 16) (s : State) (a : RouteAction) (d : Dest) (v : Via), ∃ c l,
      Accepts p b id s ∧ (s.panels.get p).contacts.length ≤ 10 ∧ Decides (s.panels.get p).routes (touchAt s
      p b).zone a ∧ Leads s p d v a ∧ contactOf s p id = some c ∧ c.live = true ∧ c.dest = .link l ∧ (s.link
      l).up = true ∧ HasRoom l s) ∧
    (∃ (p : PortId) (b : TouchBody) (id : Fin 16) (s : State) (a : RouteAction) (d : Dest) (v : Via), ∃ c,
      Accepts p b id s ∧ (s.panels.get p).contacts.length ≤ 10 ∧ Decides (s.panels.get p).routes (touchAt s
      p b).zone a ∧ Leads s p d v a ∧ contactOf s p id = some c ∧ (c.live = false ∨ ∀ l, c.dest = .link l →
      (s.link l).up = false)) ∧
    (∃ (p : PortId) (b : TouchBody) (s : State), Attends p s ∧ s.cls p = .panel ∧ s.cond p = .serving ∧
      (s.power.get p).reached = some .ready ∧ (15 < b.contact.toNat ∨ 4095 < b.rawX.toNat ∨ 4095 <
      b.rawY.toNat ∨ (10 ≤ (s.panels.get p).contacts.length ∧ ∀ c ∈ (s.panels.get p).contacts, c.id.val ≠
      b.contact.toNat))) ∧
    (∃ (p : PortId) (s : State), Attends p s ∧ s.cls p = .panel ∧ (s.cond p ≠ .serving ∨ (s.power.get
      p).reached ≠ some .ready)) :=
  ⟨⟨10, report 15, 15, claims 10 [held 23 none] hub, .holder, .link (.kiosk 23), .holder,
    by unfold Accepts Attends; decide +kernel, by decide +kernel, (by decide +kernel), by_default
    (by decide +kernel), .inr (.inl ⟨by decide +kernel, 23, by decide +kernel⟩)⟩,
    ⟨10, report 15, 15, route 10 .staff hub, by unfold Accepts Attends; decide +kernel, by decide +kernel,
      (by decide +kernel), by_entry 0 (by decide +kernel), by decide +kernel⟩,
    ⟨10, report 15, 15, route 10 .drop (contacts 10 [contact 15 (.link .staff) true] hub), .drop, .drop,
      .neither, contact 15 (.link .staff) true, .staff, by unfold Accepts Attends; decide +kernel,
      by decide +kernel, by_entry 0 (by decide +kernel), ⟨rfl, rfl⟩, by unfold HasRoom; decide +kernel⟩,
    ⟨10, report 15, 15, route 10 (.kiosk 3) (contacts 10 [contact 15 (.link .staff) false] hub), .kiosk 3,
      .link (.kiosk 3), .neither, contact 15 (.link .staff) false,
      by unfold Accepts Attends; decide +kernel, by decide +kernel, by_entry 0 (by decide +kernel), ⟨rfl,
      by decide +kernel⟩, by decide +kernel, .inl rfl⟩,
    ⟨10, ⟨1000, 15, 0, 4096, 0⟩, hub, by unfold Attends; decide +kernel⟩,
    ⟨10, check 10 .running (some .test) (cond 10 .checking hub), by unfold Attends; decide +kernel⟩⟩

theorem witness_TouchMoveAndUpFollowThePin :
    (∃ (p : PortId) (b : TouchBody) (id : Fin 16) (l : LinkId) (n : Nat) (s : State), ∃ c i o, Accepts p b
      id s ∧ contactOf s p id = some c ∧ c.live = true ∧ c.dest = .link l ∧ (s.link l).up = true ∧ (s.link
      l).queue[n]? = some i ∧ Item.touch? i = some o ∧ o.port = p ∧ o.contact = id ∧ o.phase = .move ∧ (∀ z
      ∈ (s.link l).queue.drop (n + 1), ¬ TouchOf p id z)) ∧
    (∃ (p : PortId) (b : TouchBody) (id : Fin 16) (l : LinkId) (s : State), ∃ c, Accepts p b id s ∧
      contactOf s p id = some c ∧ c.live = true ∧ c.dest = .link l ∧ (s.link l).up = true ∧ HasRoom l s ∧
      NoMoveWaits p id (s.link l).queue) ∧
    (∃ (p : PortId) (b : TouchBody) (id : Fin 16) (l : LinkId) (s : State), ∃ c, Accepts p b id s ∧
      contactOf s p id = some c ∧ c.live = true ∧ c.dest = .link l ∧ (s.link l).up = true ∧ ¬ HasRoom l s ∧
      NoMoveWaits p id (s.link l).queue) ∧
    (∃ (p : PortId) (b : TouchBody) (id : Fin 16) (l : LinkId) (s : State), ∃ c, Accepts p b id s ∧
      contactOf s p id = some c ∧ c.live = true ∧ c.dest = .link l ∧ (s.link l).up = true ∧ HasRoom l s) ∧
    (∃ (p : PortId) (b : TouchBody) (id : Fin 16) (l : LinkId) (s : State), ∃ c, ∃ (q : List Item) (r : List
      Item) (i : Item) (o : TouchRecord), Accepts p b id s ∧ contactOf s p id = some c ∧ c.live = true ∧
      c.dest = .link l ∧ (s.link l).up = true ∧ ¬ HasRoom l s ∧ (s.link l).queue = q ++ i :: r ∧ (∀ z ∈ q,
      Item.touch? z = none) ∧ Item.touch? i = some o) ∧
    (∃ (p : PortId) (b : TouchBody) (id : Fin 16) (l : LinkId) (s : State), ∃ c, Accepts p b id s ∧
      contactOf s p id = some c ∧ c.live = true ∧ c.dest = .link l ∧ (s.link l).up = true ∧ ¬ HasRoom l s ∧
      (∀ z ∈ (s.link l).queue, Item.touch? z = none)) ∧
    (∃ (p : PortId) (b : TouchBody) (id : Fin 16) (s : State), ∃ c, Accepts p b id s ∧ contactOf s p id =
      some c ∧ c.live = true ∧ (∀ l, c.dest = .link l → (s.link l).up = false)) ∧
    (∃ (p : PortId) (b : TouchBody) (id : Fin 16) (s : State), Accepts p b id s ∧ (∀ c, contactOf s p id =
      some c → c.live = false)) ∧
    (∃ (p : PortId) (b : TouchBody) (id : Fin 16) (s : State), Accepts p b id s ∧ (∀ c, contactOf s p id =
      some c → c.live = false)) :=
  ⟨⟨10, report 15, 15, .staff, 0, queued .staff [⟨.touch movePlaced, false⟩, ⟨.saveResult true, false⟩]
    (contacts 10 [contact 15 (.link .staff) true] hub), contact 15 (.link .staff) true, ⟨.touch movePlaced,
    false⟩, movePlaced, by unfold Accepts Attends; decide +kernel, by decide +kernel, (by decide +kernel),
    by decide +kernel, by decide +kernel, (by decide +kernel), by decide +kernel, by decide +kernel,
    (by decide +kernel), by decide +kernel, items_others (by decide +kernel)⟩,
    ⟨10, report 15, 15, .staff, queued .staff [⟨.touch { movePlaced with contact := 14 }, false⟩] (contacts
      10 [contact 15 (.link .staff) true] hub), contact 15 (.link .staff) true,
      by unfold Accepts Attends; decide +kernel, by decide +kernel, (by decide +kernel), by decide +kernel,
      by decide +kernel, (by unfold HasRoom; decide +kernel), no_move (by decide +kernel)⟩,
    ⟨10, report 15, 15, .staff, queued .staff (List.replicate 16 ⟨.touch { movePlaced with contact := 14 },
      false⟩) (contacts 10 [contact 15 (.link .staff) true] hub), contact 15 (.link .staff) true,
      by unfold Accepts Attends; decide +kernel, by decide +kernel, (by decide +kernel), by decide +kernel,
      by decide +kernel, (by unfold HasRoom; decide +kernel), no_move (by decide +kernel)⟩,
    ⟨10, report 15, 15, .staff, contacts 10 [contact 15 (.link .staff) true] hub, contact 15 (.link .staff)
      true, by unfold Accepts Attends HasRoom; decide +kernel⟩,
    ⟨10, report 15, 15, .staff, queued .staff (List.replicate 16 ⟨.touch { movePlaced with contact := 14 },
      false⟩) (contacts 10 [contact 15 (.link .staff) true] hub), contact 15 (.link .staff) true, [],
      List.replicate 15 ⟨.touch { movePlaced with contact := 14 }, false⟩, ⟨.touch
      { movePlaced with contact := 14 }, false⟩, { movePlaced with contact := 14 },
      by unfold Accepts Attends HasRoom; decide +kernel⟩,
    ⟨10, report 15, 15, .staff, queued .staff (List.replicate 32 ⟨.saveResult true, false⟩) (contacts 10
      [contact 15 (.link .staff) true] hub), contact 15 (.link .staff) true,
      by unfold Accepts Attends HasRoom; decide +kernel⟩,
    ⟨10, report 15, 15, contacts 10 [contact 15 .drop true] hub, contact 15 .drop true,
      by unfold Accepts Attends; decide +kernel, by decide +kernel, (by decide +kernel), fun _ h => nomatch
      h⟩,
    ⟨10, report 15, 15, contacts 10 [contact 15 (.link .staff) false] hub,
      by unfold Accepts Attends; decide +kernel, some_all (by decide +kernel)⟩,
    ⟨10, report 15, 15, hub, by unfold Accepts Attends; decide +kernel, some_all (by decide +kernel)⟩⟩

theorem witness_SequencesAndCuesFollowTheirEvents :
    (∃ (p : PortId) (b : TouchBody) (id : Fin 16) (s : State), Accepts p b id s ∧ (∀ c ∈ (s.panels.get
      p).contacts, c.id ≠ id) ∧ (s.panels.get p).contacts.length < 10 ∧ Decides (s.panels.get p).routes
      (touchAt s p b).zone .seqA ∧ (s.panels.get p).seqState ≠ .off) ∧
    (∃ (p : PortId) (b : TouchBody) (id : Fin 16) (d : Tick) (s : State), Accepts p b id s ∧ (∀ c ∈
      (s.panels.get p).contacts, c.id ≠ id) ∧ (s.panels.get p).contacts.length < 10 ∧ Decides (s.panels.get
      p).routes (touchAt s p b).zone .seqB ∧ (s.panels.get p).seqState = .waitB d ∧ (s.panels.get
      p).seq.response = .notice ∧ (s.link .staff).queue.length < 32) ∧
    (∃ (p : PortId) (b : TouchBody) (id : Fin 16) (d : Tick) (s : State), Accepts p b id s ∧ (∀ c ∈
      (s.panels.get p).contacts, c.id ≠ id) ∧ (s.panels.get p).contacts.length < 10 ∧ Decides (s.panels.get
      p).routes (touchAt s p b).zone .seqB ∧ (s.panels.get p).seqState = .waitB d ∧ (s.panels.get
      p).seq.response = .noticeTake ∧ (s.takes.get p).state = .free ∧ shieldRuns s p = false ∧ HasSlack
      .staff s) ∧
    (∃ (p : PortId) (b : TouchBody) (id : Fin 16) (d : Tick) (s : State), Accepts p b id s ∧ (∀ c ∈
      (s.panels.get p).contacts, c.id ≠ id) ∧ (s.panels.get p).contacts.length < 10 ∧ Decides (s.panels.get
      p).routes (touchAt s p b).zone .seqB ∧ (s.panels.get p).seqState = .waitB d ∧ (s.panels.get
      p).seq.response = .noticeTake ∧ (s.takes.get p).state = .free ∧ shieldRuns s p = true ∧ HasSlack
      .staff s) ∧
    (∃ (p : PortId) (b : TouchBody) (id : Fin 16) (d : Tick) (s : State), Accepts p b id s ∧ (∀ c ∈
      (s.panels.get p).contacts, c.id ≠ id) ∧ (s.panels.get p).contacts.length < 10 ∧ Decides (s.panels.get
      p).routes (touchAt s p b).zone .seqB ∧ (s.panels.get p).seqState = .waitB d ∧ (s.panels.get
      p).seq.response = .noticeTake ∧ (s.takes.get p).state ≠ .free ∧ (s.link .staff).queue.length < 32) ∧
    (∃ (p : PortId) (b : TouchBody) (id : Fin 16) (s : State), Accepts p b id s ∧ (∀ c ∈ (s.panels.get
      p).contacts, c.id ≠ id) ∧ (s.panels.get p).contacts.length < 10 ∧ Decides (s.panels.get p).routes
      (touchAt s p b).zone .seqB ∧ ((s.panels.get p).seqState = .waitA ∨ (s.panels.get p).seqState =
      .matched)) ∧
    (∃ (high : Bool) (s : State), s.loader.starting = false ∧ s.cueLevel ≠ high) ∧
    (∃ (high : Bool) (s : State), s.cueLevel = high) :=
  ⟨⟨10, report 15, 15, trigger 10 .notice .waitA (route 10 .seqA hub),
    by unfold Accepts Attends; decide +kernel, by decide +kernel, (by decide +kernel), by_entry 0
    (by decide +kernel), by decide +kernel⟩,
    ⟨10, report 15, 15, 1001, trigger 10 .notice (.waitB 1001) (route 10 .seqB hub),
      by unfold Accepts Attends; decide +kernel, by decide +kernel, (by decide +kernel), by_entry 0
      (by decide +kernel), by decide +kernel⟩,
    ⟨10, report 15, 15, 1001, trigger 10 .noticeTake (.waitB 1001) (route 10 .seqB hub),
      by unfold Accepts Attends; decide +kernel, by decide +kernel, (by decide +kernel), by_entry 0
      (by decide +kernel), by unfold HasSlack; decide +kernel⟩,
    ⟨10, report 15, 15, 1001, take 10 .free (some 1001) (trigger 10 .noticeTake (.waitB 1001) (route 10
      .seqB hub)), by unfold Accepts Attends; decide +kernel, by decide +kernel, (by decide +kernel),
      by_entry 0 (by decide +kernel), by unfold HasSlack; decide +kernel⟩,
    ⟨10, report 15, 15, 1001, take 10 .staffHold none (trigger 10 .noticeTake (.waitB 1001) (route 10 .seqB
      hub)), by unfold Accepts Attends; decide +kernel, by decide +kernel, (by decide +kernel), by_entry 0
      (by decide +kernel), by decide +kernel⟩,
    ⟨10, report 15, 15, trigger 10 .notice .matched (route 10 .seqB hub),
      by unfold Accepts Attends; decide +kernel, by decide +kernel, (by decide +kernel), by_entry 0
      (by decide +kernel), by decide +kernel⟩,
    ⟨true, { hub with cueEdge := .rising }, by decide +kernel⟩,
    ⟨false, hub, by decide +kernel⟩⟩

theorem witness_PanelRequestsAreTaken :
    (∃ (p : PortId) (b : CalibrateBody) (s : State), portOf b.port = some p ∧ Listens .staff s ∧ s.cls p =
      .panel) ∧
    (∃ (p : PortId) (b : RouteSetBody) (s : State), portOf b.port = some p ∧ Listens .staff s ∧ s.cls p =
      .panel) ∧
    (∃ (p : PortId) (b : Byte) (s : State), portOf b = some p ∧ Listens .staff s ∧ s.cls p = .panel) ∧
    (∃ (p : PortId) (b : SeqSetBody) (s : State), portOf b.port = some p ∧ Listens .staff s ∧ s.cls p =
      .panel ∧ b.armed.toNat ≤ 1 ∧ b.response.toNat ≤ 1) ∧
    (∃ (p : PortId) (b : SeqSetBody) (s : State), portOf b.port = some p ∧ Listens .staff s ∧ s.cls p =
      .panel ∧ (1 < b.armed.toNat ∨ 1 < b.response.toNat)) ∧
    (∃ (p : PortId) (b : Byte) (s : State), portOf b = some p ∧ Listens .staff s ∧ s.cls p = .panel) ∧
    (∃ (s : State), Listens .staff s) :=
  ⟨⟨10, ⟨10, 4094, 4095, 0, 1, 7, 8192, 1, 16, 1⟩, hub, by unfold Listens; decide +kernel⟩,
    ⟨10, ⟨10, 15, 0x05, 0, 255, 0⟩, hub, by unfold Listens; decide +kernel⟩,
    ⟨10, 10, hub, by unfold Listens; decide +kernel⟩,
    ⟨10, ⟨10, 1, 5001, 1⟩, hub, by unfold Listens; decide +kernel⟩,
    ⟨10, ⟨10, 2, 5001, 1⟩, hub, by unfold Listens; decide +kernel⟩,
    ⟨10, 10, trigger 10 .notice .matched hub, by unfold Listens; decide +kernel⟩,
    ⟨hub, by unfold Listens; decide +kernel⟩⟩

theorem witness_ChunksAreJudgedByTheStream :
    (∃ (l : LinkId) (p : PortId) (b : ChunkBody) (s : State), ∃ x, Hears l s ∧ portOf b.port = some p ∧
      s.streams.get p = some x ∧ x.direction = .pull ∧ x.partner = l ∧ x.sourceEnded = false ∧ 0 <
      x.senderCredit ∧ b.seq = x.expected ∧ b.flags.getLsbD 0 = false) ∧
    (∃ (l : LinkId) (p : PortId) (b : ChunkBody) (s : State), ∃ x j, Hears l s ∧ portOf b.port = some p ∧
      s.streams.get p = some x ∧ x.direction = .pull ∧ x.partner = l ∧ x.sourceEnded = false ∧ 0 <
      x.senderCredit ∧ b.seq = x.expected ∧ b.flags.getLsbD 0 = true ∧ (s.printers.get p).inflight = some j
      ∧ j.abortSent = false ∧ j.pageEnds < j.pages) ∧
    (∃ (l : LinkId) (p : PortId) (b : ChunkBody) (s : State), ∃ x j, Hears l s ∧ portOf b.port = some p ∧
      s.streams.get p = some x ∧ x.direction = .pull ∧ x.partner = l ∧ x.sourceEnded = false ∧
      (s.printers.get p).inflight = some j ∧ j.abortSent = false ∧ (x.senderCredit = 0 ∨ b.seq ≠ x.expected
      ∨ (b.flags.getLsbD 0 = true ∧ j.pages ≤ j.pageEnds))) ∧
    (∃ (l : LinkId) (b : ChunkBody) (s : State), Hears l s ∧ (∀ p, portOf b.port = some p → ∀ x,
      s.streams.get p = some x → x.direction ≠ .pull ∨ x.partner ≠ l ∨ x.sourceEnded = true)) ∧
    (∃ (p : PortId) (b : ChunkBody) (s : State), ∃ x, Attends p s ∧ portOf b.port = some p ∧ s.streams.get p
      = some x ∧ x.direction = .push ∧ x.sourceEnded = false ∧ 0 < x.senderCredit ∧ b.seq = x.expected) ∧
    (∃ (p : PortId) (b : ChunkBody) (s : State), ∃ x y, Attends p s ∧ portOf b.port = some p ∧ s.streams.get
      p = some x ∧ x.direction = .push ∧ (x.sourceEnded = true ∨ x.senderCredit = 0 ∨ b.seq ≠ x.expected) ∧
      (s.scanners.get p).scan = some y ∧ y.abortSent = false ∧ y.state ≠ .ending) ∧
    (∃ (p : PortId) (b : ChunkBody) (s : State), ∃ x y, Attends p s ∧ portOf b.port = some p ∧ NobodyWaits s
      p ∧ s.streams.get p = some x ∧ x.direction = .push ∧ x.sourceEnded = true ∧ (s.scanners.get p).scan =
      some y ∧ y.abortSent = false ∧ y.state = .ending) ∧
    (∃ (p : PortId) (b : ChunkBody) (s : State), Attends p s ∧ (portOf b.port = some p → ∀ x, s.streams.get
      p = some x → x.direction ≠ .push)) ∧
    (∃ (l : LinkId) (s : State), Hears l s) ∧
    (∃ (p : PortId) (s : State), Attends p s) :=
  ⟨⟨.kiosk 23, 0, ⟨0, 0, 2, [1]⟩, stream 0 (pull 23) (printer 0 [] (some (job 4 23 .printing)) none hub),
    pull 23, by unfold Hears; decide +kernel⟩,
    ⟨.kiosk 23, 0, ⟨0, 0, 1, [1]⟩, stream 0 (pull 23) (printer 0 [] (some (job 4 23 .printing)) none hub),
      pull 23, job 4 23 .printing, by unfold Hears; decide +kernel⟩,
    ⟨.kiosk 23, 0, ⟨0, 0, 1, [1]⟩, stream 0 (pull 23) (printer 0 [] (some
      { job 4 23 .printing with pageEnds := 2 }) none hub), pull 23,
      { job 4 23 .printing with pageEnds := 2 }, by unfold Hears; decide +kernel⟩,
    ⟨.kiosk 23, ⟨11, 0, 0, [1]⟩, hub, by unfold Hears; decide +kernel, streams_all (by decide +kernel)⟩,
    ⟨11, ⟨11, 1, 0, [1]⟩, stream 11 (push .staff) (scanning 11 (scan .staff .image .scanning) hub), push
      .staff, by unfold Attends; decide +kernel⟩,
    ⟨11, ⟨11, 0, 0, [1]⟩, stream 11 (push .staff) (scanning 11 (scan .staff .image .scanning) hub), push
      .staff, scan .staff .image .scanning, by unfold Attends; decide +kernel⟩,
    ⟨11, ⟨11, 0, 0, [1]⟩, stream 11 { push .staff with sourceEnded := true } (scanning 11 (scan .staff
      .image .ending) hub), { push .staff with sourceEnded := true }, scan .staff .image .ending,
      by unfold Attends; decide +kernel, by decide +kernel, ⟨some_all (by decide +kernel),
      by decide +kernel⟩, by decide +kernel⟩,
    ⟨11, ⟨12, 1, 0, [1]⟩, stream 11 (push .staff) (scanning 11 (scan .staff .image .scanning) hub),
      by unfold Attends; decide +kernel, fun h => absurd h (by decide +kernel)⟩,
    ⟨.staff, hub, by unfold Hears; decide +kernel⟩,
    ⟨11, hub, by unfold Attends; decide +kernel⟩⟩

theorem witness_CreditsAndStallsPaceTheStream :
    (∃ (l : LinkId) (p : PortId) (b : CreditBody) (s : State), ∃ x, Hears l s ∧ portOf b.port = some p ∧
      s.streams.get p = some x ∧ x.direction = .push ∧ x.partner = l ∧ (b.count ≠ 0 ∨ x.stall.isSome =
      stallRuns x)) ∧
    (∃ (l : LinkId) (b : CreditBody) (s : State), Hears l s ∧ (∀ p, portOf b.port = some p → ∀ x,
      s.streams.get p = some x → x.direction ≠ .push ∨ x.partner ≠ l)) ∧
    (∃ (p : PortId) (b : CreditBody) (s : State), ∃ x, Attends p s ∧ portOf b.port = some p ∧ s.streams.get
      p = some x ∧ x.direction = .pull ∧ x.stall.isSome = stallRuns x) ∧
    (∃ (p : PortId) (b : CreditBody) (s : State), Attends p s ∧ (portOf b.port = some p → ∀ x, s.streams.get
      p = some x → x.direction ≠ .pull)) ∧
    (∃ (p : PortId) (s : State), ∃ x j, s.streams.get p = some x ∧ x.direction = .pull ∧ due s.tick x.stall
      = true ∧ (s.printers.get p).inflight = some j ∧ j.abortSent = false) ∧
    (∃ (p : PortId) (s : State), (∀ x, s.streams.get p = some x → x.direction ≠ .pull ∨ due s.tick x.stall =
      false)) ∧
    (∃ (p : PortId) (s : State), ∃ x y, s.streams.get p = some x ∧ x.direction = .push ∧ due s.tick x.stall
      = true ∧ (s.scanners.get p).scan = some y ∧ y.abortSent = false ∧ y.state ≠ .ending) ∧
    (∃ (p : PortId) (s : State), (∀ x, s.streams.get p = some x → x.direction ≠ .push ∨ due s.tick x.stall =
      false)) :=
  ⟨⟨.staff, 11, ⟨11, 255⟩, stream 11 (push .staff) (scanning 11 (scan .staff .image .scanning) hub), push
    .staff, by unfold Hears; decide +kernel⟩,
    ⟨.kiosk 23, ⟨11, 1⟩, stream 11 (push .staff) (scanning 11 (scan .staff .image .scanning) hub),
      by unfold Hears; decide +kernel, streams_all (by decide +kernel)⟩,
    ⟨0, ⟨0, 9⟩, stream 0 (pull 23) (printer 0 [] (some (job 4 23 .printing)) none hub), pull 23,
      by unfold Attends; decide +kernel⟩,
    ⟨11, ⟨11, 1⟩, stream 11 (push .staff) (scanning 11 (scan .staff .image .scanning) hub),
      by unfold Attends; decide +kernel, fun _ => some_all (by decide +kernel)⟩,
    ⟨0, stream 0 { pull 23 with stall := some 1000 } (printer 0 [] (some (job 4 23 .printing)) none hub),
      { pull 23 with stall := some 1000 }, job 4 23 .printing, by decide +kernel⟩,
    ⟨0, stream 0 (pull 23) (printer 0 [] (some (job 4 23 .printing)) none hub), some_all
      (by decide +kernel)⟩,
    ⟨11, stream 11 (push .staff) (scanning 11 (scan .staff .image .scanning) hub), push .staff, scan .staff
      .image .scanning, by decide +kernel⟩,
    ⟨11, stream 11 { push .staff with stall := some 1001 } hub, some_all (by decide +kernel)⟩⟩

theorem witness_DeliveryKeepsOnePerKeyAndMakesRoom :
    (∃ (l : LinkId) (s : State), (s.link l).up = false) ∧
    (∃ (l : LinkId) (b : NoticeBody) (s : State), (s.link l).up = true ∧ (∀ r, b ≠ .touch r)) :=
  ⟨⟨.staff, down .staff hub, by decide +kernel⟩,
    ⟨.staff, .saveResult true, queued .staff [⟨.saveResult false, true⟩] hub, by decide +kernel, fun _ h =>
      nomatch h⟩⟩

theorem witness_FrameSentFreesTheTransmitter :
    (∃ (l : LinkId) (s : State), ∃ r, replySending s l = some r ∧ (r.kind ≠ Kind.bye ∨ r.code ≠ .ok)) ∧
    (∃ (l : LinkId) (s : State), replySending s l = none) ∧
    (∃ (l : LinkId) (r : Reply) (s : State), (s.link l).up = true ∧ (s.link l).sending = none ∧ (s.link
      l).reply = some r) ∧
    (∃ (l : LinkId) (i : Item) (q : List Item) (s : State), (s.link l).up = true ∧ (s.link l).sending = none
      ∧ (s.link l).reply = none ∧ (s.link l).queue = i :: q ∧ ((s.link l).turn = .notices ∨ NoStreamReady l
      s)) ∧
    (∃ (l : LinkId) (p : PortId) (s : State), ∃ x, TurnOfStreams l s ∧ FirstInRound l p s ∧ s.streams.get p
      = some x ∧ CreditReady l x) ∧
    (∃ (l : LinkId) (p : PortId) (s : State), ∃ x c rest y, TurnOfStreams l s ∧ FirstInRound l p s ∧
      s.streams.get p = some x ∧ ChunkReady l x ∧ x.buffers = c :: rest ∧ (s.scanners.get p).scan = some y ∧
      y.abortSent = false ∧ (rest ≠ [] ∨ x.sourceEnded = false ∨ y.state ≠ .ending)) ∧
    (∃ (l : LinkId) (p : PortId) (s : State), ∃ x c y m, TurnOfStreams l s ∧ FirstInRound l p s ∧
      NobodyWaits s p ∧ s.streams.get p = some x ∧ ChunkReady l x ∧ x.sourceEnded = true ∧ x.buffers = [c] ∧
      (s.scanners.get p).scan = some y ∧ y.abortSent = false ∧ y.state = .ending ∧ y.mode = .image ∧
      y.reason = none ∧ y.reported = some m) ∧
    (∃ (p : PortId) (c : DeviceCommand) (rest : List DeviceCommand) (s : State), (s.wires.get p).sending =
      none ∧ (s.wires.get p).commands = c :: rest) ∧
    (∃ (p : PortId) (s : State), ∃ x c rest, (s.wires.get p).sending = none ∧ (s.wires.get p).commands = []
      ∧ s.streams.get p = some x ∧ x.direction = .pull ∧ 0 < x.sinkCredit ∧ x.forwardHeld = false ∧
      x.stall.isSome = stallRuns x ∧ x.buffers = c :: rest) ∧
    (∃ (p : PortId) (s : State), ∃ x, (s.wires.get p).sending = none ∧ (s.wires.get p).commands = [] ∧
      s.streams.get p = some x ∧ x.direction = .push ∧ 0 < x.owed ∧ x.sourceEnded = false ∧ x.stall.isSome =
      stallRuns x) :=
  ⟨⟨.staff, onLink .staff (fun u =>
    { u with sending := some (.reply ⟨Kind.hello, .ok, .bare⟩ false), outstanding := true }) hub,
    ⟨Kind.hello, .ok, .bare⟩, by decide +kernel⟩,
    ⟨.staff, onLink .staff (fun u => { u with sending := some (.credit 0 4) }) hub, by decide +kernel⟩,
    ⟨.staff, ⟨Kind.hello, .ok, .bare⟩, onLink .staff (fun u =>
      { u with reply := some ⟨Kind.hello, .ok, .bare⟩, overrun := true }) hub, by decide +kernel⟩,
    ⟨.staff, ⟨.saveResult true, false⟩, [⟨.touch movePlaced, false⟩], queued .staff [⟨.saveResult true,
      false⟩, ⟨.touch movePlaced, false⟩] hub, by decide +kernel, by decide +kernel, (by decide +kernel),
      by decide +kernel, .inl (by decide +kernel)⟩,
    ⟨.kiosk 23, 0, stream 0 { pull 23 with owed := 2, senderCredit := 2 } (printer 0 [] (some (job 4 23
      .printing)) none hub), { pull 23 with owed := 2, senderCredit := 2 },
      by unfold TurnOfStreams; decide +kernel, first_alone (by decide +kernel),
      by unfold CreditReady; decide +kernel⟩,
    ⟨.staff, 11, stream 11 { push .staff with sinkCredit := 1 } (scanning 11 (scan .staff .image .scanning)
      hub), { push .staff with sinkCredit := 1 }, ⟨0, false, false, [1]⟩, [], scan .staff .image .scanning,
      by unfold TurnOfStreams; decide +kernel, first_alone (by decide +kernel),
      by unfold ChunkReady; decide +kernel⟩,
    ⟨.staff, 11, stream 11 { push .staff with sinkCredit := 1, sourceEnded := true } (scanning 11
      { scan .staff .image .ending with reported := some 1 } hub),
      { push .staff with sinkCredit := 1, sourceEnded := true }, ⟨0, false, false, [1]⟩,
      { scan .staff .image .ending with reported := some 1 }, 1, by unfold TurnOfStreams; decide +kernel,
      first_alone (by decide +kernel), ⟨some_all (by decide +kernel), by decide +kernel⟩,
      by unfold ChunkReady; decide +kernel⟩,
    ⟨11, .identAsk, [], onWire 11 (fun x => { x with commands := [.identAsk] }) hub, by decide +kernel⟩,
    ⟨0, stream 0 { pull 23 with sinkCredit := 1, senderCredit := 3, buffers := [⟨0, false, false, [1]⟩] }
      hub, { pull 23 with sinkCredit := 1, senderCredit := 3, buffers := [⟨0, false, false, [1]⟩] }, ⟨0,
      false, false, [1]⟩, [], by decide +kernel⟩,
    ⟨11, stream 11 { push .staff with owed := 1, senderCredit := 2 } hub,
      { push .staff with owed := 1, senderCredit := 2 }, by decide +kernel⟩⟩

theorem witness_PortSetReplacesTheConfiguration :
    (∃ (p : PortId) (b : PortSetBody) (s : State), ∃ c, portOf b.port = some p ∧ Listens .staff s ∧ configOf
      b = some c ∧ c.cls = s.cls p) ∧
    (∃ (p : PortId) (b : PortSetBody) (s : State), ∃ c, portOf b.port = some p ∧ Listens .staff s ∧ configOf
      b = some c ∧ c.cls ≠ s.cls p ∧ ClassFree p s ∧ s.cond p = .absent) ∧
    (∃ (p : PortId) (b : PortSetBody) (s : State), ∃ c, portOf b.port = some p ∧ Listens .staff s ∧ configOf
      b = some c ∧ c.cls ≠ s.cls p ∧ c.cls ≠ .unused ∧ ClassFree p s ∧ s.cond p ≠ .absent) ∧
    (∃ (p : PortId) (b : PortSetBody) (s : State), ∃ c, portOf b.port = some p ∧ Listens .staff s ∧ configOf
      b = some c ∧ c.cls ≠ s.cls p ∧ c.cls = .unused ∧ ClassFree p s ∧ s.cond p ≠ .absent) ∧
    (∃ (p : PortId) (b : PortSetBody) (s : State), portOf b.port = some p ∧ Listens .staff s ∧ (classOf
      b.cls = none ∨ queueModeOf b.queueMode = none ∨ yesNoOf b.autoResume = none ∨ yesNoOf b.cueEnable =
      none ∨ (b.flags.getLsbD 0 = true ∧ 23 < b.idleDest.toNat))) ∧
    (∃ (p : PortId) (b : PortSetBody) (s : State), ∃ c, portOf b.port = some p ∧ Listens .staff s ∧ configOf
      b = some c ∧ c.cls ≠ s.cls p ∧ ¬ ClassFree p s) ∧
    (∃ (k : KioskId) (p : PortId) (b : Byte) (s : State), portOf b = some p ∧ Listens (.kiosk k) s ∧ Reaches
      k p anyClass s) ∧
    (∃ (p : PortId) (b : Byte) (s : State), portOf b = some p ∧ Listens .staff s) :=
  ⟨⟨11, portSetBody 11 1, hub, { defaultConfig with cls := .scanner }, by unfold Listens; decide +kernel⟩,
    ⟨9, portSetBody 9 2, hub, { defaultConfig with cls := .panel },
      by unfold Listens ClassFree; decide +kernel⟩,
    ⟨11, portSetBody 11 0, hub, { defaultConfig with cls := .printer },
      by unfold Listens ClassFree; decide +kernel⟩,
    ⟨11, portSetBody 11 3, hub, { defaultConfig with cls := .unused },
      by unfold Listens ClassFree; decide +kernel⟩,
    ⟨11, portSetBody 11 4, hub, by unfold Listens; decide +kernel⟩,
    ⟨11, portSetBody 11 0, claims 11 [held 23 none] hub, { defaultConfig with cls := .printer },
      by unfold Listens ClassFree; decide +kernel⟩,
    ⟨23, 11, 11, hub, by unfold Listens Reaches; decide +kernel⟩,
    ⟨9, 9, hub, by unfold Listens; decide +kernel⟩⟩

theorem witness_PortResetStartsTheAdapterOver :
    (∃ (p : PortId) (b : Byte) (s : State), portOf b = some p ∧ Listens .staff s ∧ s.cls p ≠ .unused ∧
      s.cond p ≠ .absent ∧ s.cond p ≠ .resetting) ∧
    (∃ (p : PortId) (b : Byte) (s : State), portOf b = some p ∧ Listens .staff s ∧ s.cls p ≠ .unused ∧
      s.cond p = .resetting) ∧
    (∃ (p : PortId) (b : Byte) (s : State), portOf b = some p ∧ Listens .staff s ∧ (s.cls p = .unused ∨
      s.cond p = .absent)) :=
  ⟨⟨11, 11, busy, by unfold Listens; decide +kernel⟩,
    ⟨11, 11, cond 11 .resetting hub, by unfold Listens; decide +kernel⟩,
    ⟨9, 9, hub, by unfold Listens; decide +kernel⟩⟩

theorem witness_CheckRunsToItsVerdict :
    (∃ (p : PortId) (b : CheckBody) (s : State), portOf b.port = some p ∧ Listens .staff s ∧ s.cls p ≠
      .unused ∧ s.cond p = .serving ∧ (s.power.get p).reached = some .ready ∧ s.holder p = none ∧
      (s.printers.get p).inflight = none ∧ (s.scanners.get p).scan = none ∧ (s.takes.get p).state = .free) ∧
    (∃ (p : PortId) (b : CheckBody) (s : State), portOf b.port = some p ∧ Listens .staff s ∧ (s.cls p =
      .unused ∨ s.cond p ≠ .serving ∨ (s.power.get p).reached ≠ some .ready ∨ s.holder p ≠ none ∨
      (s.printers.get p).inflight ≠ none ∨ (s.scanners.get p).scan ≠ none ∨ (s.takes.get p).state ≠ .free)) ∧
    (∃ (p : PortId) (data : List Byte) (s : State), ∃ st, Attends p s ∧ (s.ctls.get p).check.status =
      .running ∧ (s.ctls.get p).check.step = some st ∧ st ≠ .test ∧ data = echoPattern st) ∧
    (∃ (p : PortId) (data : List Byte) (s : State), ∃ st, Attends p s ∧ (s.ctls.get p).check.status =
      .running ∧ s.cond p = .checking ∧ (s.ctls.get p).check.step = some st ∧ st ≠ .test ∧ data ≠
      echoPattern st) ∧
    (∃ (p : PortId) (s : State), Attends p s ∧ (s.ctls.get p).check.status = .running ∧ s.cond p = .checking
      ∧ (s.ctls.get p).check.step = some .test) ∧
    (∃ (p : PortId) (s : State), Attends p s ∧ ((s.ctls.get p).check.status ≠ .running ∨ (s.ctls.get
      p).check.step = none ∨ (s.ctls.get p).check.step = some .test)) ∧
    (∃ (p : PortId) (s : State), Attends p s ∧ ((s.ctls.get p).check.status ≠ .running ∨ (s.ctls.get
      p).check.step ≠ some .test)) :=
  ⟨⟨11, ⟨11, 11⟩, hub, by unfold Listens; decide +kernel⟩,
    ⟨9, ⟨9, 0⟩, hub, by unfold Listens; decide +kernel⟩,
    ⟨11, echoPattern .echo4, check 11 .running (some .echo4) (cond 11 .checking hub), .echo4,
      by unfold Attends; decide +kernel⟩,
    ⟨11, [], check 11 .running (some .echo1) (cond 11 .checking hub), .echo1,
      by unfold Attends; decide +kernel⟩,
    ⟨11, check 11 .running (some .test) (cond 11 .checking hub), by unfold Attends; decide +kernel⟩,
    ⟨11, check 11 .running (some .test) (cond 11 .checking hub), by unfold Attends; decide +kernel⟩,
    ⟨11, check 11 .running (some .echo4) (cond 11 .checking hub), by unfold Attends; decide +kernel⟩⟩

theorem witness_AdaptersAreBroughtIn :
    (∃ (p : PortId) (s : State), s.loader.starting = false ∧ s.cond p = .absent ∧ s.cls p ≠ .unused ∧
      (s.ctls.get p).mismatch = false) ∧
    (∃ (p : PortId) (s : State), s.loader.starting = false ∧ s.cond p = .identifying) ∧
    (∃ (p : PortId) (s : State), s.loader.starting = false ∧ s.cond p = .resetting) ∧
    (∃ (p : PortId) (s : State), s.loader.starting = false ∧ (s.cond p = .serving ∨ s.cond p = .stalled ∨
      s.cond p = .checking)) ∧
    (∃ (p : PortId) (b : IdentBody) (s : State), s.loader.starting = false ∧ s.cond p = .identifying ∧ s.cls
      p ≠ .unused ∧ classOf b.cls = some (s.cls p)) ∧
    (∃ (p : PortId) (b : IdentBody) (s : State), s.loader.starting = false ∧ s.cond p = .identifying ∧
      (s.cls p = .unused ∨ classOf b.cls ≠ some (s.cls p)) ∧ ListOrdered (s.claims.get p)) ∧
    (∃ (p : PortId) (s : State), Attends p s ∧ s.cond p ≠ .identifying) ∧
    (∃ (p : PortId) (b : IdentBody) (i : Instr) (s : State), i ∈ [Instr.announce p, .ident p b] ∧
      s.loader.starting = false ∧ s.cond p = .unresponsive) :=
  ⟨⟨11, cond 11 .absent hub, by decide +kernel⟩,
    ⟨11, cond 11 .identifying hub, by decide +kernel⟩,
    ⟨11, cond 11 .resetting hub, by decide +kernel⟩,
    ⟨11, busy, by decide +kernel⟩,
    ⟨11, ⟨1, 7, 0, 4⟩, cond 11 .identifying hub, by decide +kernel⟩,
    ⟨11, ⟨4, 7, 0, 3⟩, cond 11 .identifying (claims 11 [held 23 none] hub),
      by unfold ListOrdered; decide +kernel⟩,
    ⟨11, hub, by unfold Attends; decide +kernel⟩,
    ⟨11, ⟨1, 7, 0, 3⟩, .announce 11, cond 11 .unresponsive hub, by decide +kernel⟩⟩

theorem witness_EveryFrameIsASignOfLife :
    (∃ (p : PortId) (kind : Byte) (i : Instr) (s : State), i ∈ [Instr.alive p, .adapterFrameWrongLength p
      kind, .adapterUnknownKind p kind] ∧ Attends p s) ∧
    (∃ (p : PortId) (i : Instr) (w : Wait) (s : State), (((∃ level, i = .powerDone p level) ∧ w = .powerSet
      ∧ (s.power.get p).moving = false) ∨ ((∃ flags, i = .testResult p flags) ∧ w = .testStart ∧ (s.ctls.get
      p).check.status ≠ .running) ∨ ((∃ b, i = .ident p b) ∧ w = .identAsk ∧ s.cond p ≠ .identifying)) ∧
      Attends p s) ∧
    (∃ (p : PortId) (kind : Byte) (i : Instr) (s : State), i ∈ [Instr.alive p, .adapterFrameWrongLength p
      kind, .adapterUnknownKind p kind] ∧ s.loader.starting = false ∧ s.cond p = .unresponsive) ∧
    (∃ (p : PortId) (kind : Byte) (b : IdentBody) (i : Instr) (s : State), i ∈ [Instr.alive p,
      .adapterFrameWrongLength p kind, .adapterUnknownKind p kind, .ident p b] ∧ s.loader.starting = false ∧
      s.cond p = .absent ∧ s.cls p ≠ .unused ∧ (s.ctls.get p).mismatch = false ∧ (s.ctls.get p).clearSpacing
      = none) ∧
    (∃ (p : PortId) (kind : Byte) (b : IdentBody) (i : Instr) (s : State), i ∈ [Instr.alive p,
      .adapterFrameWrongLength p kind, .adapterUnknownKind p kind, .ident p b, .announce p] ∧
      s.loader.starting = false ∧ s.cond p = .absent ∧ (s.cls p = .unused ∨ (s.ctls.get p).mismatch = true ∨
      (i ≠ .announce p ∧ (s.ctls.get p).clearSpacing ≠ none))) ∧
    (∃ (p : PortId) (kind : Byte) (b : IdentBody) (i : Instr) (s : State), i ∈ [Instr.alive p,
      .adapterFrameWrongLength p kind, .adapterUnknownKind p kind, .ident p b, .announce p] ∧
      s.loader.starting = true) ∧
    (∃ (i : Instr) (s : State), ∃ f, workFrame s i = some f ∧ Attends f.1 s) ∧
    (∃ (i : Instr) (s : State), ∃ f, workFrame s i = some f ∧ s.loader.starting = false ∧ s.cond f.1 =
      .unresponsive) ∧
    (∃ (i : Instr) (s : State), ∃ f, workFrame s i = some f ∧ (s.loader.starting = true ∨ s.cond f.1 =
      .absent)) :=
  ⟨⟨11, 0xA0, .alive 11, hub, by unfold Attends; decide +kernel⟩,
    ⟨11, .powerDone 11 4, .powerSet, hub, .inl ⟨⟨4, rfl⟩, rfl, by decide +kernel⟩,
      by unfold Attends; decide +kernel⟩,
    ⟨11, 0xA0, .adapterFrameWrongLength 11 0xA0, cond 11 .unresponsive hub, by decide +kernel⟩,
    ⟨11, 0xB0, ⟨4, 7, 0, 3⟩, .adapterUnknownKind 11 0xB0, cond 11 .absent hub, by decide +kernel⟩,
    ⟨9, 0xB0, ⟨4, 7, 0, 3⟩, .alive 9, hub, by decide +kernel⟩,
    ⟨11, 0xB0, ⟨4, 7, 0, 3⟩, .ident 11 ⟨4, 7, 0, 3⟩, State.reset, by decide +kernel⟩,
    ⟨.scanEnd 11 0 0, busy, (11, [.scanStart, .scanAbort]), by unfold Attends; decide +kernel⟩,
    ⟨.powerDone 11 3, cond 11 .unresponsive hub, (11, [.powerSet]), by decide +kernel⟩,
    ⟨.chunk (.device 11) .wrongLength, cond 11 .absent hub, (11, []), by decide +kernel⟩⟩

theorem witness_AdapterTimersExpire :
    (∃ (p : PortId) (s : State), due s.tick (s.ctls.get p).response = true ∧ s.cond p ≠ .absent ∧ s.cond p ≠
      .unresponsive) ∧
    (∃ (p : PortId) (s : State), due s.tick (s.ctls.get p).silence = true ∧ s.cond p ≠ .absent ∧ ListOrdered
      (s.claims.get p)) ∧
    (∃ (p : PortId) (s : State), due s.tick (s.ctls.get p).silence = true ∧ s.cond p = .absent) ∧
    (∃ (p : PortId) (s : State), due s.tick (s.ctls.get p).clearSpacing = true) ∧
    (∃ (p : PortId) (s : State), (due s.tick (s.ctls.get p).response = false ∨ s.cond p = .absent ∨ s.cond p
      = .unresponsive)) ∧
    (∃ (p : PortId) (s : State), due s.tick (s.ctls.get p).silence = false) ∧
    (∃ (p : PortId) (s : State), due s.tick (s.ctls.get p).clearSpacing = false) :=
  ⟨⟨11, onCtl 11 (fun x => { x with waits := [.powerSet], response := some 1000 }) busy, by decide +kernel⟩,
    ⟨11, onCtl 11 (fun x => { x with silence := some 1000 }) busy, by unfold ListOrdered; decide +kernel⟩,
    ⟨11, cond 11 .absent (onCtl 11 (fun x => { x with silence := some 1000, mismatch := true }) hub),
      by decide +kernel⟩,
    ⟨11, onCtl 11 (fun x => { x with clearSpacing := some 1000 }) hub, by decide +kernel⟩,
    ⟨11, onCtl 11 (fun x => { x with waits := [.powerSet], response := some 1001 }) hub, by decide +kernel⟩,
    ⟨11, onCtl 11 (fun x => { x with silence := some 1001 }) hub, by decide +kernel⟩,
    ⟨11, onCtl 11 (fun x => { x with clearSpacing := some 1001 }) hub, by decide +kernel⟩⟩

theorem witness_VotesAndLimitsAreStored :
    (∃ (k : KioskId) (p : PortId) (b : VoteBody) (s : State), portOf b.port = some p ∧ Listens (.kiosk k) s
      ∧ MayUse k p anyClass s) ∧
    (∃ (p : PortId) (b : LimitBody) (s : State), ∃ f c, portOf b.port = some p ∧ Listens .staff s ∧ levelOf
      b.floor = some f ∧ levelOf b.ceiling = some c ∧ f.value ≤ c.value) ∧
    (∃ (p : PortId) (b : LimitBody) (s : State), portOf b.port = some p ∧ Listens .staff s ∧ (3 <
      b.floor.toNat ∨ 3 < b.ceiling.toNat ∨ b.ceiling.toNat < b.floor.toNat)) ∧
    (∃ (b : LimitBody) (s : State), 11 < b.port.toNat ∧ Listens .staff s) :=
  ⟨⟨23, 11, ⟨11, some 4⟩, hub, by unfold Listens MayUse Reaches; decide +kernel⟩,
    ⟨11, ⟨11, 3, 3⟩, hub, .ready, .ready, by unfold Listens; decide +kernel⟩,
    ⟨11, ⟨11, 4, 3⟩, hub, by unfold Listens; decide +kernel⟩,
    ⟨⟨12, 0, 3⟩, hub, by unfold Listens; decide +kernel⟩⟩

theorem witness_PowerDoneEndsTheTransition :
    (∃ (p : PortId) (level : Byte) (s : State), Attends p s ∧ (s.power.get p).moving = true ∧ (¬
      ((s.power.get p).reached = some .off ∧ (level = 1 ∨ level = 2 ∨ level = 3) ∧ (s.cond p = .serving ∨
      s.cond p = .stalled)))) ∧
    (∃ (p : PortId) (level : Byte) (s : State), Attends p s ∧ (s.power.get p).moving = true ∧ (s.power.get
      p).reached = some .off ∧ (level = 1 ∨ level = 2 ∨ level = 3) ∧ (s.cond p = .serving ∨ s.cond p =
      .stalled)) ∧
    (∃ (p : PortId) (s : State), Attends p s ∧ (s.power.get p).moving = false) :=
  ⟨⟨11, 4, level 11 (some .off) true hub, by unfold Attends; decide +kernel⟩,
    ⟨11, 1, level 11 (some .off) true hub, by unfold Attends; decide +kernel⟩,
    ⟨11, hub, by unfold Attends; decide +kernel⟩⟩

theorem witness_SaveWritesTheSettings :
    (∃ (s : State), Listens .staff s ∧ s.loader.save = .idle) ∧
    (∃ (s : State), Listens .staff s ∧ s.loader.save ≠ .idle) ∧
    (∃ (s : State), ∃ x, s.loader.save = .saving ∧ s.loader.writing = some x) ∧
    (∃ (s : State), s.loader.save ≠ .saving) ∧
    (∃ (s : State), Listens .staff s) :=
  ⟨⟨hub, by unfold Listens; decide +kernel⟩,
    ⟨{ hub with loader := { hub.loader with save := .saving, writing := some [1, 2] } },
      by unfold Listens; decide +kernel⟩,
    ⟨{ hub with loader := { hub.loader with save := .saving, writing := some [1, 2] } }, [1, 2],
      by decide +kernel⟩,
    ⟨hub, by decide +kernel⟩,
    ⟨hub, by unfold Listens; decide +kernel⟩⟩

theorem witness_LoadAppliesAValidImage :
    (∃ (s : State), Listens .staff s ∧ s.hall = .quiet ∧ s.loader.save = .idle) ∧
    (∃ (s : State), Listens .staff s ∧ (s.hall ≠ .quiet ∨ s.loader.save ≠ .idle)) ∧
    (∃ (a : MemoryAnswer) (s : State), ∃ i, s.loader.save = .loading ∧ answered s a = some i ∧ ImageValid i) ∧
    (∃ (a : MemoryAnswer) (s : State), s.loader.save = .loading ∧ (∀ i, answered s a = some i → ¬ ImageValid
      i)) ∧
    (∃ (s : State), s.loader.save ≠ .loading) :=
  ⟨⟨{ hub with hall := .quiet }, by unfold Listens; decide +kernel⟩,
    ⟨hub, by unfold Listens; decide +kernel⟩,
    ⟨.bytes (imageBytes busy.settings),
      { hub with hall := .quiet, loader := { hub.loader with save := .loading, awaiting := true } },
      imageBytes busy.settings, by decide +kernel, rfl, busy_image⟩,
    ⟨.silent, { hub with hall := .quiet, loader := { hub.loader with save := .loading, awaiting := true } },
      by decide +kernel, fun _ h => nomatch h⟩,
    ⟨hub, by decide +kernel⟩⟩

theorem witness_ResetsStartTheHubAfresh :
    (∃ (i : Instr), i ∈ [Instr.powerOn, .resetLine]) ∧
    (∃ (s : State), Listens .staff s) ∧
    (∃ (s : State), s.loader.starting = true) ∧
    (∃ (s : State), s.loader.starting = false) :=
  ⟨⟨.resetLine, by decide +kernel⟩,
    ⟨hub, by unfold Listens; decide +kernel⟩,
    ⟨State.reset, by decide +kernel⟩,
    ⟨hub, by decide +kernel⟩⟩

theorem witness_HelloAndByeOpenAndCloseALink :
    (∃ (k : KioskId) (s : State), s.loader.starting = false ∧ (s.kiosks.get k).up = false) ∧
    (∃ (s : State), s.loader.starting = false ∧ s.staff.up = false ∧ s.staff.queue = []) ∧
    (∃ (k : KioskId) (s : State), Listens (.kiosk k) s ∧ JobIdsUnique s) ∧
    (∃ (k : KioskId) (s t : State), Listens (.kiosk k) s ∧ JobIdsUnique s ∧ exec (.hello (.kiosk k) (.fields
      ())) s = .next (finish t t) ∧ s.hall = .closing ∧ someFell s.counts t.counts = true ∧
      t.quietCondition = true ∧ StaffKeeps k s) ∧
    (∃ (l : LinkId) (s : State), Listens l s) ∧
    (∃ (l : LinkId) (s : State), s.loader.starting = false ∧ (s.link l).up = false) ∧
    (∃ (l : LinkId) (s : State), Listens l s) ∧
    (∃ (s : State), Listens .staff s ∧ ScansOnScanners s) ∧
    (∃ (l : LinkId) (s : State), s.loader.starting = false ∧ (s.link l).up = true ∧ (s.link l).outstanding =
      true) :=
  ⟨⟨23, busy, by decide +kernel⟩,
    ⟨down .staff hub, by decide +kernel⟩,
    ⟨22, busy, by unfold Listens JobIdsUnique; decide +kernel⟩,
    ⟨5, { printer 0 [job 30 5 .queued] none none hub with hall := .closing }, _,
      by unfold Listens; decide +kernel, by unfold JobIdsUnique; decide +kernel, rfl,
      by decide +kernel, by decide +kernel, by decide +kernel, .inr (by decide +kernel)⟩,
    ⟨.staff, hub, by unfold Listens; decide +kernel⟩,
    ⟨.kiosk 23, busy, by decide +kernel⟩,
    ⟨.staff, hub, by unfold Listens; decide +kernel⟩,
    ⟨scanning 11 (scan .staff .image .scanning) hub, by unfold Listens ScansOnScanners; decide +kernel⟩,
    ⟨.staff, onLink .staff (fun u => { u with outstanding := true }) hub, by decide +kernel⟩⟩

theorem witness_LinksGoDown :
    (∃ (k : KioskId) (s : State), due s.tick (s.kiosks.get k).silence = true ∧ JobIdsUnique s) ∧
    (∃ (k : KioskId) (s : State), ∃ r, replySending s (.kiosk k) = some r ∧ r.kind = Kind.bye ∧ r.code = .ok
      ∧ JobIdsUnique s) ∧
    (∃ (k : KioskId) (b : Byte) (s : State), kioskOf b = some k ∧ Listens .staff s ∧ (s.kiosks.get k).up =
      true ∧ JobIdsUnique s) ∧
    (∃ (k : KioskId) (b : Byte) (s : State), kioskOf b = some k ∧ Listens .staff s ∧ (s.kiosks.get k).up =
      false) ∧
    (∃ (b : Byte) (s : State), 23 < b.toNat ∧ Listens .staff s) ∧
    (∃ (i : Instr) (s : State), i ∈ [Instr.linkSilence .staff, .frameSent .staff] ∧ ScansOnScanners s ∧ (i =
      .linkSilence .staff → due s.tick s.staff.silence = true) ∧ (i = .frameSent .staff → ∃ r ∈ replySending
      s .staff, r.kind = Kind.bye ∧ r.code = .ok)) ∧
    (∃ (l : LinkId) (s : State), due s.tick (s.link l).silence = false) :=
  ⟨⟨22, onLink (.kiosk 22) (fun u => { u with silence := some 1000 }) busy,
    by unfold JobIdsUnique; decide +kernel⟩,
    ⟨22, onLink (.kiosk 22) (fun u => { u with sending := some (.reply ⟨Kind.bye, .ok, .bare⟩ false) })
      busy, ⟨Kind.bye, .ok, .bare⟩, by unfold JobIdsUnique; decide +kernel⟩,
    ⟨22, 22, busy, by unfold Listens JobIdsUnique; decide +kernel⟩,
    ⟨23, 23, busy, by unfold Listens; decide +kernel⟩,
    ⟨24, hub, by unfold Listens; decide +kernel⟩,
    ⟨.frameSent .staff, onLink .staff (fun u =>
      { u with sending := some (.reply ⟨Kind.bye, .ok, .bare⟩ false) }) hub,
      by unfold ScansOnScanners; decide +kernel⟩,
    ⟨.kiosk 22, busy, by decide +kernel⟩⟩

theorem witness_ProfilesAreSetAndRead :
    (∃ (k : KioskId) (b : AdmitBody) (s : State), ∃ v, kioskOf b.kiosk = some k ∧ Listens .staff s ∧ yesNoOf
      b.admitted = some v ∧ ((s.profiles.get k).admitted = false ∨ v = true)) ∧
    (∃ (k : KioskId) (b : AdmitBody) (s : State), kioskOf b.kiosk = some k ∧ Listens .staff s ∧ yesNoOf
      b.admitted = some false ∧ (s.profiles.get k).admitted = true ∧ JobIdsUnique s) ∧
    (∃ (k : KioskId) (b : ProfileBody) (s : State), ∃ c b1 l1 b2 l2, kioskOf b.kiosk = some k ∧ Listens
      .staff s ∧ claimClassOf b.cls = some c ∧ portOf b.w1Base = some b1 ∧ portOf b.w1Limit = some l1 ∧
      portOf b.w2Base = some b2 ∧ portOf b.w2Limit = some l2) ∧
    (∃ (b : AdmitBody) (s : State), Listens .staff s ∧ (23 < b.kiosk.toNat ∨ 1 < b.admitted.toNat)) ∧
    (∃ (b : ProfileBody) (s : State), Listens .staff s ∧ (23 < b.kiosk.toNat ∨ 3 < b.cls.toNat ∨ 11 <
      b.w1Base.toNat ∨ 11 < b.w1Limit.toNat ∨ 11 < b.w2Base.toNat ∨ 11 < b.w2Limit.toNat)) ∧
    (∃ (k : KioskId) (b : Byte) (s : State), kioskOf b = some k ∧ Listens .staff s) ∧
    (∃ (b : Byte) (s : State), 23 < b.toNat ∧ Listens .staff s) :=
  ⟨⟨23, ⟨23, 1⟩, busy, true, by unfold Listens; decide +kernel⟩,
    ⟨3, ⟨3, 0⟩, busy, by unfold Listens JobIdsUnique; decide +kernel⟩,
    ⟨23, ⟨23, 3, 11, 11, 1, 0⟩, hub, 3, 11, 11, 1, 0, by unfold Listens; decide +kernel⟩,
    ⟨⟨24, 0⟩, hub, by unfold Listens; decide +kernel⟩,
    ⟨⟨0, 4, 0, 11, 1, 0⟩, hub, by unfold Listens; decide +kernel⟩,
    ⟨23, 23, busy, by unfold Listens; decide +kernel⟩,
    ⟨24, hub, by unfold Listens; decide +kernel⟩⟩

theorem witness_CommonChecksDecideFirst :
    (∃ (l : LinkId) (s : State), Listens l s) ∧
    (∃ (k : KioskId) (a : Body Byte) (b : Body SubmitBody) (c : Body Half) (d : Body ScanBody) (e : Body
      VoteBody) (x : Instr × Byte) (s : State), x ∈ [(.claim k a, Kind.claim), (.release k a, Kind.release),
      (.claimQuery k a, Kind.claimQuery), (.submit k b, Kind.submit), (.cancel k c, Kind.cancel), (.jobQuery
      k c, Kind.jobQuery), (.scan k d, Kind.scan), (.scanStop k a, Kind.scanStop), (.vote k e, Kind.vote)] ∧
      Listens (.kiosk k) s ∧ (s.profiles.get k).admitted = false) ∧
    (∃ (k : KioskId) (x : Instr × Byte) (s : State), x ∈ [(.claim k .wrongLength, Kind.claim), (.release k
      .wrongLength, Kind.release), (.claimQuery k .wrongLength, Kind.claimQuery), (.submit k .wrongLength,
      Kind.submit), (.cancel k .wrongLength, Kind.cancel), (.jobQuery k .wrongLength, Kind.jobQuery), (.scan
      k .wrongLength, Kind.scan), (.scanStop k .wrongLength, Kind.scanStop), (.vote k .wrongLength,
      Kind.vote)] ∧ Listens (.kiosk k) s ∧ (s.profiles.get k).admitted = true) ∧
    (∃ (x : Instr × Byte) (s : State), x ∈ [(.bye .staff .wrongLength, Kind.bye), (.portQuery .staff
      .wrongLength, Kind.portQuery), (.staffScan .wrongLength, Kind.scan), (.staffScanStop .wrongLength,
      Kind.scanStop), (.setAdmission .wrongLength, Kind.setAdmission), (.profileSet .wrongLength,
      Kind.profileSet), (.kioskQuery .wrongLength, Kind.kioskQuery), (.kioskDrop .wrongLength,
      Kind.kioskDrop), (.portSet .wrongLength, Kind.portSet), (.calibrate .wrongLength, Kind.calibrate),
      (.routeSet .wrongLength, Kind.routeSet), (.routeQuery .wrongLength, Kind.routeQuery), (.seqSet
      .wrongLength, Kind.seqSet), (.seqQuery .wrongLength, Kind.seqQuery), (.cueSet .wrongLength,
      Kind.cueSet), (.take .wrongLength, Kind.take), (.giveBack .wrongLength, Kind.giveBack), (.closeHall
      .wrongLength, Kind.closeHall), (.openHall .wrongLength, Kind.openHall), (.limit .wrongLength,
      Kind.limit), (.portReset .wrongLength, Kind.portReset), (.check .wrongLength, Kind.check), (.jobDrop
      .wrongLength, Kind.jobDrop), (.queueList .wrongLength, Kind.queueList), (.claimList .wrongLength,
      Kind.claimList), (.save .wrongLength, Kind.save), (.load .wrongLength, Kind.load), (.hubReset
      .wrongLength, Kind.hubReset), (.hubIdent .wrongLength, Kind.hubIdent)] ∧ Listens .staff s) ∧
    (∃ (k : KioskId) (n : Byte) (b : SubmitBody) (d : ScanBody) (e : VoteBody) (y : Instr × Byte ×
      (PortClass → Bool)) (s : State), y ∈ [(.claim k (.fields n), Kind.claim, claimable), (.release k
      (.fields n), Kind.release, claimable), (.claimQuery k (.fields n), Kind.claimQuery, claimable),
      (.submit k (.fields { b with port := n }), Kind.submit, printable), (.scan k (.fields
      { d with port := n }), Kind.scan, scannable), (.scanStop k (.fields n), Kind.scanStop, scannable),
      (.vote k (.fields { e with port := n }), Kind.vote, anyClass)] ∧ Listens (.kiosk k) s ∧
      (s.profiles.get k).admitted = true ∧ (∀ p, portOf n = some p → ¬ Reaches k p y.2.2 s)) ∧
    (∃ (k : KioskId) (n : Byte) (s : State), Listens (.kiosk k) s ∧ (∀ p, portOf n = some p → ¬ Reaches k p
      anyClass s)) ∧
    (∃ (k : KioskId) (x : Instr × Byte) (s : State), x ∈ [(.portQuery (.kiosk k) .wrongLength,
      Kind.portQuery), (.bye (.kiosk k) .wrongLength, Kind.bye)] ∧ Listens (.kiosk k) s) ∧
    (∃ (n : Byte) (a : CheckBody) (b : ListBody) (c : ScanBody) (d : CalibrateBody) (e : RouteSetBody) (f :
      SeqSetBody) (y : Instr × Byte × (PortClass → Bool)) (s : State), y ∈ [(.take (.fields n), Kind.take,
      anyClass), (.giveBack (.fields n), Kind.giveBack, anyClass), (.portReset (.fields n), Kind.portReset,
      anyClass), (.check (.fields { a with port := n }), Kind.check, anyClass), (.queueList (.fields
      { b with port := n }), Kind.queueList, printable), (.claimList (.fields { b with port := n }),
      Kind.claimList, claimable), (.staffScan (.fields { c with port := n }), Kind.scan, scannable),
      (.staffScanStop (.fields n), Kind.scanStop, scannable), (.calibrate (.fields { d with port := n }),
      Kind.calibrate, touchable), (.routeSet (.fields { e with port := n }), Kind.routeSet, touchable),
      (.routeQuery (.fields n), Kind.routeQuery, touchable), (.seqSet (.fields { f with port := n }),
      Kind.seqSet, touchable), (.seqQuery (.fields n), Kind.seqQuery, touchable)] ∧ Listens .staff s ∧ (∀ p,
      portOf n = some p → s.cls p = .unused ∨ y.2.2 (s.cls p) = false)) ∧
    (∃ (n : Byte) (a : PortSetBody) (x : Instr × Byte) (s : State), x ∈ [(.portSet (.fields
      { a with port := n }), Kind.portSet), (.portQuery .staff (.fields n), Kind.portQuery)] ∧ Listens
      .staff s ∧ 11 < n.toNat) ∧
    (∃ (i : Instr) (s : State), ∃ l, requestOn i = some l ∧ s.loader.starting = false ∧ (s.link l).up = true
      ∧ (s.link l).outstanding = true) ∧
    (∃ (i : Instr) (s : State), ∃ l, requestOn i = some l ∧ s.loader.starting = false ∧ (s.link l).up =
      false) ∧
    (∃ (l : LinkId) (b : Body ChunkBody) (c : Body CreditBody) (i : Instr) (s : State), i ∈ [Instr.chunk
      (.link l) b, .credit l c] ∧ s.loader.starting = false ∧ (s.link l).up = false) ∧
    (∃ (i : Instr) (s : State), requestOn i ≠ none ∧ s.loader.starting = true) ∧
    (∃ (l : LinkId) (a : Body Unit) (b : Body ChunkBody) (c : Body CreditBody) (i : Instr) (s : State), i ∈
      [Instr.hello l a, .chunk (.link l) b, .credit l c] ∧ s.loader.starting = true) :=
  ⟨⟨.staff, hub, by unfold Listens; decide +kernel⟩,
    ⟨23, .wrongLength, .wrongLength, .wrongLength, .wrongLength, .wrongLength, (.vote 23 .wrongLength,
      Kind.vote), { hub with profiles := hub.profiles.modify 23 fun x => { x with admitted := false } },
      by unfold Listens; decide +kernel⟩,
    ⟨23, (.vote 23 .wrongLength, Kind.vote), hub, by unfold Listens; decide +kernel⟩,
    ⟨(.hubIdent .wrongLength, Kind.hubIdent), hub, by unfold Listens; decide +kernel⟩,
    ⟨23, 12, ⟨0, 0, 0, 1, 1, 0, none⟩, ⟨0, 0, 100, 1⟩, ⟨0, none⟩, (.claim 23 (.fields 12), Kind.claim,
      claimable), hub, by simp, by unfold Listens Reaches; decide +kernel⟩,
    ⟨23, 12, hub, by unfold Listens Reaches; decide +kernel⟩,
    ⟨23, (.bye (.kiosk 23) .wrongLength, Kind.bye), hub, by unfold Listens; decide +kernel⟩,
    ⟨11, ⟨0, 0⟩, ⟨0, 0⟩, ⟨0, 0, 100, 1⟩, ⟨0, 0, 1, 0, 1, 0, 1, 1, 1, 1⟩, ⟨0, 0, 0, 0, 0, 0⟩, ⟨0, 0, 100, 0⟩,
      (.seqQuery (.fields 11), Kind.seqQuery, touchable), hub, by simp, by unfold Listens; decide +kernel⟩,
    ⟨12, portSetBody 0 0, (.portQuery .staff (.fields 12), Kind.portQuery), hub,
      by unfold Listens; decide +kernel⟩,
    ⟨.openHall (.fields ()), busyOn .staff hub, .staff, by decide +kernel⟩,
    ⟨.claim 23 (.fields 11), busy, .kiosk 23, by decide +kernel⟩,
    ⟨.kiosk 23, .wrongLength, .wrongLength, .credit (.kiosk 23) .wrongLength, busy, by decide +kernel⟩,
    ⟨.hubIdent (.fields ()), State.reset, by decide +kernel⟩,
    ⟨.staff, .fields (), .wrongLength, .wrongLength, .hello .staff (.fields ()), State.reset,
      by decide +kernel⟩⟩

theorem witness_DiscardedFramesAreHuntedAgain :
    (∃ (b : Byte), b ≠ startByte) ∧
    (∃ (bs : List Byte), examine bs = .discarded) ∧
    (∃ (bs : List Byte) (rest : List Byte) (f : Frame), examine bs = .valid f rest) ∧
    (∃ (bs : List Byte), examine bs = .incomplete) ∧
    (∃ (l : LinkId) (bytes : List Byte) (s : State), s.loader.starting = false ∧ (hunt ((s.link l).rx ++
      bytes)).1 = []) ∧
    (∃ (p : PortId) (bytes : List Byte) (s : State), s.loader.starting = false ∧ (hunt ((s.wires.get p).rx
      ++ bytes)).1 = []) ∧
    (∃ (w : Wire) (bytes : List Byte) (s : State), ∃ f i, s.loader.starting = false ∧ (hunt (s.rx w ++
      bytes)).1 = [f] ∧ frameCommand w s.tick f = some i) ∧
    (∃ (s : State), s.loader.starting = true) :=
  ⟨⟨0xC2, by decide +kernel⟩,
    ⟨[0x2D, 0x01], by decide +kernel⟩,
    ⟨[0x01, 0x00, 0xAF, 0xA9, 0xBF, 7], [7], ⟨Kind.alive, []⟩, by decide +kernel⟩,
    ⟨[0x2C, 0x01], by decide +kernel⟩,
    ⟨.staff, [0xC3, 0x00, 0x00, 0xC3], hub, by decide +kernel⟩,
    ⟨11, [0xC3, 0x00, 0x00], hub, by decide +kernel⟩,
    ⟨.device 11, [0xC3, 0x00, 0x00, 0xC3, 0x01, 0x00, 0xAF, 0xA9, 0xBF], hub, ⟨Kind.alive, []⟩, .alive 11,
      by decide +kernel⟩,
    ⟨State.reset, by decide +kernel⟩⟩

theorem witness_FramesDecodeToTheirCommands :
    (∃ (i : Instr) (w : Wire) (f : Frame), WellFormed i = true ∧ frameOf i = some (w, f)) :=
  ⟨.scanEnd 11 1 0x04030201, .device 11, ⟨Kind.scanEnd, [1, 1, 2, 3, 4]⟩, by decide +kernel⟩

theorem witness_IdleStepIsOneTick :
    (∃ (s : State), s.pending = []) :=
  ⟨busy, by decide +kernel⟩

theorem witness_StreamsKeepTheirCredit :
    (∃ (s : State) (t : State), StreamsBalance s ∧ step s = .next t) :=
  ⟨busy, stepped (busy), busy_safe.1, rfl⟩

theorem witness_QueuesAndTablesStayBounded :
    (∃ (s : State) (t : State), (QueuesFit s ∧ ContactsBounded s) ∧ step s = .next t) :=
  ⟨busy, stepped (busy), ⟨busy_safe.2.1, busy_safe.2.2.1⟩, rfl⟩

theorem witness_ClaimListsStayOrdered :
    (∃ (s : State) (t : State), (ClaimsOrdered s ∧ DeadlinesFrozen s) ∧ step s = .next t) :=
  ⟨busy, stepped (busy), ⟨busy_safe.2.2.2.1, busy_safe.2.2.2.2.1⟩, rfl⟩

theorem witness_JobsStayBounded :
    (∃ (s : State) (t : State), (JobsBounded s ∧ JobIdsUnique s) ∧ step s = .next t) :=
  ⟨busy, stepped (busy), ⟨busy_safe.2.2.2.2.2.1, busy_safe.2.2.2.2.2.2.1⟩, rfl⟩

theorem witness_AQuietHallStaysEmpty :
    (∃ (s : State) (t : State), QuietIsEmpty s ∧ step s = .next t) :=
  ⟨{ hub with hall := .quiet }, stepped ({ hub with hall := .quiet }),
    by unfold QuietIsEmpty; decide +kernel, rfl⟩

theorem witness_AKioskAwayHasNothing :
    (∃ (s : State) (t : State), (ClaimsOrdered s ∧ DeadlinesFrozen s) ∧ (ScansOwned s ∧ AwayHasNothing s) ∧
      step s = .next t) :=
  ⟨busy, stepped (busy), ⟨busy_safe.2.2.2.1, busy_safe.2.2.2.2.1⟩, ⟨busy_safe.2.2.2.2.2.2.2.2.1,
    busy_safe.2.2.2.2.2.2.2.2.2.1⟩, rfl⟩

theorem witness_SettingsStayInRange :
    (∃ (s : State) (t : State), SettingsHeldInRange s ∧ step s = .next t) :=
  ⟨busy, stepped (busy), busy_safe.2.2.2.2.2.2.2.2.2.2, rfl⟩
/-- A full queue whose oldest touch record stands at its second place. -/
def fullQueue : List Item :=
  ⟨.saveResult true, false⟩ :: ⟨.touch movePlaced, false⟩ ::
    List.replicate 30 ⟨.takeState 0 .staffHold none, false⟩

/-- The three ways a notice comes into a queue: in place, at the tail, and with room made for it. -/
theorem witness_DeliveryKeepsOnePerKeyAndMakesRoom_cases :
    (∃ (b : NoticeBody) (n : Nat) (i : Item), fullQueue[n]? = some i ∧ keyOf b ≠ none ∧
      keyOf i.body = keyOf b ∧
      ∀ m < 32, ∀ j ∈ fullQueue[m]?, keyOf j.body = keyOf b → m = n) ∧
    (∃ (b : NoticeBody) (q r : List Item) (i : Item), keyOf b = none ∧ 32 ≤ fullQueue.length ∧
      fullQueue = q ++ i :: r ∧ (Item.touch? i).isSome = true ∧ ∀ j ∈ q, Item.touch? j = none) ∧
    (∃ (b : NoticeBody) (q : List Item), keyOf b = some (.port 11) ∧ (∀ j ∈ q, keyOf j.body ≠ keyOf b) ∧
      32 ≤ q.length ∧ ∀ j ∈ q, Item.touch? j = none) :=
  ⟨⟨.saveResult false, 0, ⟨.saveResult true, false⟩, by decide +kernel⟩,
    ⟨.attendant ⟨10, .zone, 0, 15, 1000, false⟩, [⟨.saveResult true, false⟩],
      List.replicate 30 ⟨.takeState 0 .staffHold none, false⟩, ⟨.touch movePlaced, false⟩, by decide +kernel⟩,
    ⟨.portState ⟨11, .scanner, .serving, .serving, .fault, none, none, none⟩,
      List.replicate 32 ⟨.saveResult true, false⟩, by decide +kernel⟩⟩

end Sys2Proof.Tests
end

section
/-! The jobs and the next-id counter under every operation. `jobPool` is the part of the state that R45
speaks of. Most operations leave it (first part). The others that are no SUBMIT and no reset replace records in
it, move a job from its queue into flight or end jobs: they bring in no job, which `NoNewJob` says (second
part). -/

namespace Sys2Proof.Safety

open Sys2Proof.Machine

variable {s t u : State}

/-- The part of the state that R45 speaks of: the next-id counter, and the printers with their jobs. -/
def jobPool (s : State) : Nat × Table Printer 12 := (s.nextJob, s.printers)

/-- Every part of the state but the jobs and the next-id counter. -/
def noJobs : Part → Prop
  | .printer _ => False
  | .nextJob => False
  | _ => True

theorem news_noJobs : News noJobs := ⟨fun _ => trivial, fun _ => trivial⟩

theorem closes_noJobs : Closes noJobs :=
  ⟨news_noJobs, trivial, fun _ => trivial, fun _ => trivial, fun _ => trivial⟩

@[simp] theorem jobPool_snd (s : State) : (jobPool s).2 = s.printers := rfl

/-! ### Operations that leave the jobs -/

theorem table_ext {α : Type} {n : Nat} {a b : Table α n} (h : ∀ i, a.get i = b.get i) : a = b :=
  Vector.ext fun i hi => h ⟨i, hi⟩

theorem modify_modify {α : Type} {n : Nat} (a : Table α n) (i : Fin n) (f g : α → α) :
    (a.modify i f).modify i g = a.modify i fun x => g (f x) :=
  table_ext fun j => by by_cases h : j = i <;> simp [h]

/-- What changes no job in a frame leaves the job pool. -/
theorem Only.jobPool (h : Only noJobs s t) : jobPool t = jobPool s := by
  have hn : t.nextJob = s.nextJob := h.same (x := .nextJob) id
  have hp : ∀ p, t.printers.get p = s.printers.get p := fun p => h.same (x := .printer p) id
  simp [Safety.jobPool, hn, table_ext hp]

@[simp] theorem jobPool_ite (c : Prop) [Decidable c] (s t : State) :
    jobPool (if c then s else t) = if c then jobPool s else jobPool t := apply_ite ..

theorem jobPool_foldl {α : Type} {f : State → α → State} (hf : ∀ a u, jobPool (f u a) = jobPool u)
    (l : List α) (s : State) : jobPool (l.foldl f s) = jobPool s := by
  induction l generalizing s with
  | nil => rfl
  | cons a as ih => rw [List.foldl_cons, ih, hf]

theorem jobPool_forPorts {f : PortId → State → State} (hf : ∀ p u, jobPool (f p u) = jobPool u)
    (s : State) : jobPool (forPorts f s) = jobPool s := jobPool_foldl hf allPorts s

@[simp] theorem jobPool_onClaims (p : PortId) (f : List Claim → List Claim) (s : State) :
    jobPool (onClaims p f s) = jobPool s := rfl

@[simp] theorem jobPool_onTake (p : PortId) (f : Takeover → Takeover) (s : State) :
    jobPool (onTake p f s) = jobPool s := rfl

@[simp] theorem jobPool_onScanner (p : PortId) (f : Scanner → Scanner) (s : State) :
    jobPool (onScanner p f s) = jobPool s := rfl

@[simp] theorem jobPool_onPanel (p : PortId) (f : Panel → Panel) (s : State) :
    jobPool (onPanel p f s) = jobPool s := rfl

@[simp] theorem jobPool_onStream (p : PortId) (f : Option Stream → Option Stream) (s : State) :
    jobPool (onStream p f s) = jobPool s := rfl

@[simp] theorem jobPool_onOpenStream (p : PortId) (b : Bool) (f : Stream → Stream) (s : State) :
    jobPool (onOpenStream p b f s) = jobPool s := rfl

@[simp] theorem jobPool_onCtl (p : PortId) (f : PortCtl → PortCtl) (s : State) :
    jobPool (onCtl p f s) = jobPool s := rfl

@[simp] theorem jobPool_onPower (p : PortId) (f : Power → Power) (s : State) :
    jobPool (onPower p f s) = jobPool s := rfl

@[simp] theorem jobPool_onWire (p : PortId) (f : DeviceWire → DeviceWire) (s : State) :
    jobPool (onWire p f s) = jobPool s := rfl

@[simp] theorem jobPool_onLoader (f : Loader → Loader) (s : State) :
    jobPool (onLoader f s) = jobPool s := rfl

@[simp] theorem jobPool_onLink (l : LinkId) (f : LinkUnit → LinkUnit) (s : State) :
    jobPool (onLink l f s) = jobPool s := by
  cases l <;> rfl

/-! #### Deliveries, replies, waits and commands -/

@[simp] theorem jobPool_deliver (l : LinkId) (b : NoticeBody) (s : State) :
    jobPool (deliver l b s) = jobPool s :=
  (Only.deliver trivial (fun _ => trivial) (.refl noJobs s)).jobPool

@[simp] theorem jobPool_deliverTouch (l : LinkId) (r : TouchRecord) (s : State) :
    jobPool (deliverTouch l r s).1 = jobPool s :=
  (Only.deliverTouch trivial (fun _ => trivial) (.refl noJobs s)).jobPool

@[simp] theorem jobPool_claimNews (p : PortId) (k : KioskId) (n : ClaimNews) (s : State) :
    jobPool (claimNews p k n s) = jobPool s := jobPool_deliver ..

@[simp] theorem jobPool_takeNews (p : PortId) (s : State) : jobPool (takeNews p s) = jobPool s :=
  jobPool_deliver ..

@[simp] theorem jobPool_hallNews (s : State) : jobPool (hallNews s) = jobPool s := jobPool_deliver ..

@[simp] theorem jobPool_kioskNews (k : KioskId) (c : KioskCause) (s : State) :
    jobPool (kioskNews k c s) = jobPool s := jobPool_deliver ..

@[simp] theorem jobPool_hubNews (s : State) : jobPool (hubNews s) = jobPool s := jobPool_deliver ..

@[simp] theorem jobPool_checkNews (p : PortId) (s : State) : jobPool (checkNews p s) = jobPool s :=
  jobPool_deliver ..

@[simp] theorem jobPool_portNews (p : PortId) (b : Condition) (c : PortCause) (r : Option Byte)
    (s : State) : jobPool (portNews p b c r s) = jobPool s := jobPool_deliver ..

@[simp] theorem jobPool_jobNews (p : PortId) (j : Job) (r : JobReport) (s : State) :
    jobPool (jobNews p j r s) = jobPool s := jobPool_deliver ..

@[simp] theorem jobPool_docNews (p : PortId) (k : KioskId) (s : State) :
    jobPool (docNews p k s) = jobPool s := jobPool_deliver ..

@[simp] theorem jobPool_giveResult (p : PortId) (x : Scan) (s : State) :
    jobPool (giveResult p x s) = jobPool s := jobPool_deliver ..

@[simp] theorem jobPool_reply (l : LinkId) (kind : Byte) (c : ResultCode) (f : ReplyFields) (s : State) :
    jobPool (reply l kind c f s) = jobPool s := jobPool_onLink ..

@[simp] theorem jobPool_refuse (l : LinkId) (kind : Byte) (c : ResultCode) (s : State) :
    jobPool (refuse l kind c s) = jobPool s := jobPool_reply ..

@[simp] theorem jobPool_answer (l : LinkId) (kind : Byte) (f : ReplyFields) (s : State) :
    jobPool (answer l kind f s) = jobPool s := jobPool_reply ..

@[simp] theorem jobPool_endWait (p : PortId) (w : Wait) (s : State) :
    jobPool (endWait p w s) = jobPool s := rfl

@[simp] theorem jobPool_sendCommand (p : PortId) (c : DeviceCommand) (s : State) :
    jobPool (sendCommand p c s) = jobPool s :=
  (Only.sendCommand trivial trivial (.refl noJobs s)).jobPool

@[simp] theorem sendCommand_printers (p : PortId) (c : DeviceCommand) (s : State) :
    (sendCommand p c s).printers = s.printers := congrArg Prod.snd (jobPool_sendCommand p c s)

@[simp] theorem jobPool_signOfLife (p : PortId) (ws : List Wait) (s : State) :
    jobPool (signOfLife p ws s) = jobPool s := rfl

@[simp] theorem jobPool_syncJobWait (p : PortId) (on : Bool) (s : State) :
    jobPool (syncJobWait p on s) = jobPool s := (Only.syncJobWait trivial (.refl noJobs s)).jobPool

/-! #### Claims, scans, streams and contacts -/

@[simp] theorem jobPool_rearm (p : PortId) (s : State) : jobPool (rearm p s) = jobPool s := rfl

@[simp] theorem jobPool_activity (p : PortId) (k : KioskId) (s : State) :
    jobPool (activity p k s) = jobPool s := (Only.activity trivial (.refl noJobs s)).jobPool

@[simp] theorem jobPool_setSuspended (p : PortId) (v : Bool) (s : State) :
    jobPool (setSuspended p v s) = jobPool s := rfl

@[simp] theorem jobPool_setTake (p : PortId) (x : TakeState) (s : State) :
    jobPool (setTake p x s) = jobPool s := jobPool_takeNews ..

@[simp] theorem jobPool_pendTake (p : PortId) (w : Waiting) (b : Bool) (s : State) :
    jobPool (pendTake p w b s) = jobPool s := jobPool_setTake ..

@[simp] theorem jobPool_removeClaim (p : PortId) (k : KioskId) (s : State) :
    jobPool (removeClaim p k s) = jobPool s := rfl

@[simp] theorem jobPool_grant (p : PortId) (k : KioskId) (b : Bool) (s : State) :
    jobPool (grant p k b s) = jobPool s := (Only.grant trivial news_noJobs (.refl noJobs s)).jobPool

@[simp] theorem jobPool_promote (p : PortId) (s : State) : jobPool (promote p s) = jobPool s :=
  (Only.promote trivial news_noJobs (.refl noJobs s)).jobPool

@[simp] theorem jobPool_setScan (p : PortId) (o : Option Scan) (s : State) :
    jobPool (setScan p o s) = jobPool s := (Only.setScan trivial trivial (.refl noJobs s)).jobPool

@[simp] theorem jobPool_openStream (p : PortId) (d : Direction) (l : LinkId) (n : Nat) (a b : Bool)
    (s : State) : jobPool (openStream p d l n a b s) = jobPool s := rfl

@[simp] theorem jobPool_closeStream (p : PortId) (s : State) : jobPool (closeStream p s) = jobPool s := rfl

@[simp] theorem jobPool_orphan (p : PortId) (id : Fin 16) (s : State) :
    jobPool (orphan p id s) = jobPool s := rfl

@[simp] theorem jobPool_handSynthetic (p : PortId) (c : Contact) (s : State) :
    jobPool (handSynthetic p c s) = jobPool s :=
  (Only.handSynthetic news_noJobs (.refl noJobs s)).jobPool

@[simp] theorem jobPool_cutContacts (p : PortId) (pick : Contact → Bool) (s : State) :
    jobPool (cutContacts p pick s) = jobPool s := (Only.cutContacts news_noJobs (.refl noJobs s)).jobPool

@[simp] theorem jobPool_holderChanged (p : PortId) (s : State) :
    jobPool (holderChanged p s) = jobPool s := jobPool_cutContacts ..

@[simp] theorem jobPool_clearContacts (p : PortId) (s : State) :
    jobPool (clearContacts p s) = jobPool s := (Only.clearContacts news_noJobs (.refl noJobs s)).jobPool

@[simp] theorem jobPool_orphanLink (l : LinkId) (s : State) : jobPool (orphanLink l s) = jobPool s :=
  (Only.orphanLink (fun _ => trivial) (.refl noJobs s)).jobPool

@[simp] theorem jobPool_cutKiosk (k : KioskId) (s : State) : jobPool (cutKiosk k s) = jobPool s :=
  (Only.cutKiosk news_noJobs (.refl noJobs s)).jobPool

@[simp] theorem jobPool_afterPlacing (p : PortId) (l : LinkId) (tag : Option Nat) (s : State) :
    jobPool (afterPlacing p l tag s) = jobPool s := by
  cases l <;> simp [afterPlacing]

@[simp] theorem jobPool_handReport (p : PortId) (d : Dest) (r : TouchRecord) (s : State) :
    jobPool (handReport p d r s) = jobPool s := by
  unfold handReport
  split
  · rfl
  · simp only
    split
    · split <;> simp
    · simp

/-! #### Conditions and the end of an event -/

@[simp] theorem jobPool_endCheck (p : PortId) (st : CheckStatus) (s : State) :
    jobPool (endCheck p st s) = jobPool s := (Only.endCheck trivial news_noJobs (.refl noJobs s)).jobPool

@[simp] theorem jobPool_documentGone (p : PortId) (s : State) :
    jobPool (documentGone p s) = jobPool s := by
  unfold documentGone
  split
  · simp only
    split <;> simp
  · rfl

@[simp] theorem jobPool_touchTakes (p : PortId) (b c : Condition) (s : State) :
    jobPool (touchTakes p b c s) = jobPool s := by
  simp [touchTakes]

@[simp] theorem jobPool_removeCommands (p : PortId) (s : State) :
    jobPool (removeCommands p s) = jobPool s := rfl

@[simp] theorem jobPool_votesGone (p : PortId) (s : State) : jobPool (votesGone p s) = jobPool s := rfl

@[simp] theorem jobPool_hallFalls (b s : State) : jobPool (hallFalls b s) = jobPool s :=
  (Only.hallFalls trivial news_noJobs (.refl noJobs s)).jobPool

@[simp] theorem jobPool_testQuiet (s : State) : jobPool (testQuiet s) = jobPool s :=
  (Only.testQuiet trivial news_noJobs (.refl noJobs s)).jobPool

@[simp] theorem jobPool_closeEvent (b s : State) : jobPool (closeEvent b s) = jobPool s :=
  (Only.closeEvent closes_noJobs (.refl noJobs s)).jobPool

/-- Replacing the record of the job in flight changes that of the job pool alone. -/
theorem jobPool_setInflight (p : PortId) (j : Job) (s : State) : jobPool (setInflight p j s) =
    jobPool (onPrinter p (fun x => { x with inflight := some j }) s) := by
  simp [setInflight]

@[simp] theorem setInflight_inflight (p : PortId) (j : Job) (s : State) :
    ((setInflight p j s).printers.get p).inflight = some j := by
  have e := congrArg (fun x => (x.2.get p).inflight) (jobPool_setInflight p j s)
  simpa using e

theorem jobPool_onPrinter (p : PortId) (f : Printer → Printer) (s : State) :
    jobPool (onPrinter p f s) = ((jobPool s).1, (jobPool s).2.modify p f) := rfl

/-! ### Operations that bring in no job -/

/-- The ids of a printer's live jobs, the one in flight first. -/
def idsOf (x : Printer) : List Nat := (Printer.jobs x).map (·.id)

theorem mem_idsOf {x : Printer} {n : Nat} : n ∈ idsOf x ↔ ∃ j ∈ Printer.jobs x, j.id = n := List.mem_map

/-- A printer's queue has lost jobs at most, and every live job of it had its id before. -/
structure FewerJobs (x y : Printer) : Prop where
  queue : y.queue.Sublist x.queue
  ids : (idsOf y).Subperm (idsOf x)

theorem FewerJobs.refl (x : Printer) : FewerJobs x x := ⟨.refl _, .refl _⟩

theorem FewerJobs.trans {x y z : Printer} (h : FewerJobs x y) (g : FewerJobs y z) : FewerJobs x z :=
  ⟨g.queue.trans h.queue, g.ids.trans h.ids⟩

/-- From the first state to the second no job has come in, and the next-id counter stands (R45). -/
structure NoNewJob (s t : State) : Prop where
  counter : (jobPool t).1 = (jobPool s).1
  fewer : ∀ p, FewerJobs ((jobPool s).2.get p) ((jobPool t).2.get p)

theorem NoNewJob.nextJob (h : NoNewJob s t) : t.nextJob = s.nextJob := h.counter

theorem NoNewJob.refl (s : State) : NoNewJob s s := ⟨rfl, fun _ => .refl _⟩

theorem NoNewJob.trans (h : NoNewJob s t) (g : NoNewJob t u) : NoNewJob s u :=
  ⟨g.counter.trans h.counter, fun p => (h.fewer p).trans (g.fewer p)⟩

/-- An operation that leaves the jobs, at the end. -/
theorem NoNewJob.same (h : NoNewJob s t) (e : jobPool u = jobPool t) : NoNewJob s u :=
  ⟨e ▸ h.counter, e ▸ h.fewer⟩

/-- The same, by the operation's name first. -/
theorem NoNewJob.after (e : jobPool u = jobPool t) (h : NoNewJob s t) : NoNewJob s u := h.same e

/-- A conditional operation. -/
theorem NoNewJob.ite {c : Prop} [Decidable c] (h : c → NoNewJob s t) (g : ¬c → NoNewJob s u) :
    NoNewJob s (if c then t else u) := by
  split
  · exact h ‹_›
  · exact g ‹_›

/-- An operation for each of a list. -/
theorem NoNewJob.foldl {α : Type} {f : State → α → State} (l : List α) (h : NoNewJob s t)
    (hf : ∀ a u, NoNewJob s u → NoNewJob s (f u a)) : NoNewJob s (l.foldl f t) := by
  induction l generalizing t with
  | nil => exact h
  | cons a as ih => exact ih (hf a t h)

theorem NoNewJob.forPorts {f : PortId → State → State} (h : NoNewJob s t)
    (hf : ∀ p u, NoNewJob s u → NoNewJob s (f p u)) : NoNewJob s (forPorts f t) := h.foldl allPorts hf

theorem NoNewJob.forKiosks {f : KioskId → State → State} (h : NoNewJob s t)
    (hf : ∀ k u, NoNewJob s u → NoNewJob s (f k u)) : NoNewJob s (forKiosks f t) := h.foldl allKiosks hf

/-- A printer's record changes. -/
theorem NoNewJob.onPrinter {p : PortId} {f : Printer → Printer} (h : NoNewJob s t)
    (hf : FewerJobs (t.printers.get p) (f (t.printers.get p))) : NoNewJob s (onPrinter p f t) := by
  refine h.trans ⟨rfl, fun q => ?_⟩
  by_cases e : q = p
  · subst e; simpa [jobPool] using hf
  · simpa [jobPool, e] using FewerJobs.refl _

/-! #### The job in flight -/

/-- The record of the job in flight is replaced by one with its id. -/
theorem NoNewJob.setInflight {p : PortId} {j : Job} (h : NoNewJob s t)
    (hj : (t.printers.get p).inflight.map (·.id) = some j.id) : NoNewJob s (setInflight p j t) := by
  obtain ⟨i, hi, hij⟩ := Option.map_eq_some_iff.1 hj
  refine .after (jobPool_setInflight ..) (h.onPrinter ⟨.refl _, ?_⟩)
  simp [idsOf, Printer.jobs, hi, hij, List.Subperm.refl]

theorem NoNewJob.holdJob {p : PortId} (h : NoNewJob s t) : NoNewJob s (holdJob p t) := by
  unfold Machine.holdJob
  split
  · exact h
  · next j hj =>
    refine .ite (fun _ => h) fun _ => .after (jobPool_jobNews ..) (.setInflight (h.same (by simp)) ?_)
    split <;> simp [hj]

theorem NoNewJob.enterStaffHold {p : PortId} (h : NoNewJob s t) : NoNewJob s (enterStaffHold p t) := by
  unfold Machine.enterStaffHold
  refine .after (jobPool_takeNews ..) (.ite (fun _ => .holdJob ?_) fun _ => ?_)
  all_goals split <;> exact h.same (by simp)

theorem NoNewJob.completeTake {p : PortId} {ws : List Waiting} (h : NoNewJob s t) :
    NoNewJob s (completeTake p ws t) := by
  unfold Machine.completeTake
  split
  · exact .ite (fun _ => h.enterStaffHold) fun _ => h
  · exact h

theorem NoNewJob.abortJob {p : PortId} {c : AbortCause} (h : NoNewJob s t) :
    NoNewJob s (abortJob p c t) := by
  unfold Machine.abortJob
  split
  · exact h
  · next j hj =>
    exact .ite (fun _ => h) fun _ => .after (jobPool_sendCommand ..) (.setInflight h (by simp [hj]))

theorem NoNewJob.evaluateTake {p : PortId} (h : NoNewJob s t) : NoNewJob s (evaluateTake p t) := by
  have byClass : ∀ {u}, NoNewJob s u → NoNewJob s (takeByClass p u) := fun {u} hu => by
    unfold takeByClass
    split
    · exact .ite (fun _ => hu.same (by simp)) fun _ => hu.enterStaffHold
    · split
      · exact hu.enterStaffHold
      · next j hj =>
        refine .ite (fun _ => hu.same (by simp)) fun _ => .ite (fun _ => hu.enterStaffHold) fun _ => ?_
        exact .after (jobPool_pendTake ..) (.after (jobPool_sendCommand ..) (hu.setInflight (by simp [hj])))
    · exact hu.enterStaffHold
    · exact hu.enterStaffHold
  unfold Machine.evaluateTake
  split
  · exact .ite (fun _ => byClass (h.same rfl)) fun _ => h.same (by simp)
  · exact byClass h

theorem NoNewJob.takePort {p : PortId} (h : NoNewJob s t) : NoNewJob s (takePort p t) := by
  unfold Machine.takePort
  split
  · exact h.evaluateTake
  · exact h

/-! #### Selection, and the ends of jobs -/

/-- Jobs leave the queue. -/
theorem FewerJobs.filterQueue (x : Printer) (f : Job → Bool) :
    FewerJobs x { x with queue := x.queue.filter f } :=
  ⟨List.filter_sublist, ((List.filter_sublist.append_left _).map _).subperm⟩

/-- The job in flight ends. -/
theorem FewerJobs.flightEnds (x : Printer) : FewerJobs x { x with inflight := none } :=
  ⟨.refl _, ((List.sublist_append_right _ _).map _).subperm⟩

/-- The gap deadline is none of the jobs. -/
theorem FewerJobs.gap (x : Printer) (d : Option Tick) : FewerJobs x { x with gap := d } :=
  ⟨.refl _, .refl _⟩

/-- A job of the queue goes into flight. -/
theorem FewerJobs.starts {x : Printer} {j : Job} (hj : j ∈ x.queue) (hx : x.inflight = none) :
    FewerJobs x { x with queue := x.queue.filter fun q => q.id != j.id,
                         inflight := some { j with state := .starting } } := by
  refine ⟨List.filter_sublist, ?_⟩
  have e : (x.queue.filter fun q => q.id != j.id).map (·.id) = (x.queue.map (·.id)).filter (· != j.id) := by
    simp [List.filter_map, Function.comp_def]
  have hm : j.id ∈ x.queue.map (·.id) := List.mem_map.2 ⟨j, hj, rfl⟩
  have hs : ((x.queue.map (·.id)).filter (· != j.id)).Subperm (x.queue.map (·.id)) :=
    List.filter_sublist.subperm
  simpa [idsOf, Printer.jobs, hx, e] using List.cons_subperm_of_not_mem_of_mem (by simp) hm hs

theorem mem_insertByPriority {i j : Job} {q : List Job} :
    i ∈ insertByPriority j q ↔ i = j ∨ i ∈ q := by
  induction q with
  | nil => simp [insertByPriority]
  | cons x xs ih =>
    unfold insertByPriority
    split
    · simp
    · simp [ih, or_left_comm]

theorem mem_foldl_insertByPriority {i : Job} {q acc : List Job} :
    i ∈ q.foldl (fun acc j => insertByPriority j acc) acc ↔ i ∈ acc ∨ i ∈ q := by
  induction q generalizing acc with
  | nil => simp
  | cons x xs ih => simp [ih, mem_insertByPriority, or_assoc, or_left_comm]

/-- The serving order holds the jobs of the queue (R48). -/
theorem mem_servingOrder {m : QueueMode} {q : List Job} {j : Job} : j ∈ servingOrder m q ↔ j ∈ q := by
  cases m with
  | arrival => exact .rfl
  | priority => simp [servingOrder, mem_foldl_insertByPriority]

/-- A selection leaves the jobs, or moves one from the queue into flight (R49, R50). -/
theorem select_cases (p : PortId) (s : State) : jobPool (select p s) = jobPool s
    ∨ ∃ j ∈ (s.printers.get p).queue, (s.printers.get p).inflight = none
      ∧ jobPool (select p s) = jobPool (onPrinter p (fun x =>
          { x with queue := x.queue.filter fun q => q.id != j.id,
                   inflight := some { j with state := .starting } }) s) := by
  unfold select
  split
  · exact .inl rfl
  · next j l hj =>
    simp only
    split
    · next hc =>
      have hq : j ∈ s.serving p := hj ▸ List.mem_cons_self
      refine .inr ⟨j, mem_servingOrder.1 hq, by simpa using hc.1, ?_⟩
      simp [jobPool_setInflight, jobPool_onPrinter, modify_modify]
    · exact .inl rfl

theorem NoNewJob.select {p : PortId} (h : NoNewJob s t) : NoNewJob s (select p t) := by
  obtain e | ⟨j, hj, hx, e⟩ := select_cases p t
  · exact h.same e
  · exact .after e (h.onPrinter (.starts hj hx))

theorem NoNewJob.endInflight {p : PortId} {j : Job} {e : JobEnd} (h : NoNewJob s t) :
    NoNewJob s (endInflight p j e t) := by
  have ended : NoNewJob s (jobNews p j (.ended e) (endWait p .jobProgress
      (Machine.onPrinter p (fun x => { x with inflight := none }) (closeStream p t)))) :=
    .after (jobPool_jobNews ..) (.after (jobPool_endWait ..)
      (.onPrinter (.after (jobPool_closeStream ..) h) (.flightEnds _)))
  have gap : ∀ d, NoNewJob s (Machine.onPrinter p (fun x => { x with gap := d }) _) := fun d =>
    ended.onPrinter (.gap _ d)
  exact .completeTake (.ite (fun _ => (gap _).select) fun _ => gap _)

theorem NoNewJob.endQueued {p : PortId} {j : Job} {e : JobEnd} (h : NoNewJob s t) :
    NoNewJob s (endQueued p j e t) := .after (jobPool_jobNews ..) (h.onPrinter (.filterQueue _ _))

theorem NoNewJob.endInflightNow {p : PortId} {r : FailReason} (h : NoNewJob s t) :
    NoNewJob s (endInflightNow p r t) := by
  unfold Machine.endInflightNow
  split
  · exact h
  · exact h.endInflight

theorem NoNewJob.endQueue {p : PortId} {e : JobEnd} (h : NoNewJob s t) : NoNewJob s (endQueue p e t) :=
  h.foldl _ fun _ _ hu => hu.endQueued

theorem NoNewJob.endQueuedOf {k : KioskId} {p : PortId} {r : FailReason} (h : NoNewJob s t) :
    NoNewJob s (endQueuedOf k p r t) := h.foldl _ fun _ _ hu => hu.endQueued

/-! #### Scans leaving flight, and the ends of claims: a take that waited for the scan may hold the job -/

theorem NoNewJob.leaveFlight {p : PortId} (h : NoNewJob s t) : NoNewJob s (leaveFlight p t) := by
  have left : ∀ {l u}, NoNewJob s u → NoNewJob s (scanLeft p l u) := fun hu => by
    unfold scanLeft
    refine .completeTake ?_
    split <;> exact hu.same (by simp)
  unfold Machine.leaveFlight
  split
  · exact h
  · exact left (h.same (by simp))

theorem NoNewJob.finishScan {p : PortId} {x : Scan} (h : NoNewJob s t) : NoNewJob s (finishScan p x t) :=
  .leaveFlight (h.same (by simp))

theorem NoNewJob.abortScan {p : PortId} {r : ScanReason} (h : NoNewJob s t) :
    NoNewJob s (abortScan p r t) := by
  unfold Machine.abortScan
  split
  · exact h
  · refine .ite (fun _ => h) fun _ => ?_
    simp only
    split
    · exact .leaveFlight (h.same (by simp))
    · exact h.same (by simp)

theorem NoNewJob.endScanNow {p : PortId} {r : ScanReason} (h : NoNewJob s t) :
    NoNewJob s (endScanNow p r t) := by
  unfold Machine.endScanNow
  split
  · exact h
  · exact .ite (fun _ => h.leaveFlight) fun _ => h.finishScan

theorem NoNewJob.abortStaffScan {p : PortId} {r : ScanReason} (h : NoNewJob s t) :
    NoNewJob s (abortStaffScan p r t) := by
  unfold Machine.abortStaffScan
  split
  · exact .ite (fun _ => h.abortScan) fun _ => h
  · exact h

theorem NoNewJob.endRecord {p : PortId} {k : KioskId} {r : Option EndReason} (h : NoNewJob s t) :
    NoNewJob s (endRecord p k r t) := by
  have removed : NoNewJob s (removeClaim p k t) := h.same rfl
  have ofHolder : ∀ c : Claim, NoNewJob s
      (if c.role = .holder then
        match (removeClaim p k t).cls p with
        | .panel => holderChanged p (removeClaim p k t)
        | .scanner => grantEnded p k (removeClaim p k t)
        | _ => removeClaim p k t
      else removeClaim p k t) := fun c => by
    refine .ite (fun _ => ?_) fun _ => removed
    split
    · exact removed.same (by simp)
    · unfold grantEnded
      split
      · exact .ite (fun _ => removed.abortScan) fun _ => removed
      · exact removed
    · exact removed
  unfold Machine.endRecord
  split
  · exact h
  · simp only
    split
    · exact .after (jobPool_claimNews ..) (ofHolder _)
    · exact ofHolder _

theorem NoNewJob.endClaim {p : PortId} {k : KioskId} {r : Option EndReason} (h : NoNewJob s t) :
    NoNewJob s (endClaim p k r t) := by
  unfold Machine.endClaim
  split
  · exact h
  · exact .ite (fun _ => .after (jobPool_promote ..) h.endRecord) fun _ => h.endRecord

theorem NoNewJob.endWaiters {p : PortId} {r : EndReason} (h : NoNewJob s t) :
    NoNewJob s (endWaiters p r t) := h.foldl _ fun _ _ hu => hu.endRecord

theorem NoNewJob.endAllClaims {p : PortId} {r : EndReason} (h : NoNewJob s t) :
    NoNewJob s (endAllClaims p r t) := by
  unfold Machine.endAllClaims
  simp only
  split
  · exact .endClaim h.endWaiters
  · exact h.endWaiters

/-! #### A change of condition -/

theorem NoNewJob.setReached {p : PortId} {v : Option Level} (h : NoNewJob s t) :
    NoNewJob s (setReached p v t) := by
  unfold Machine.setReached
  refine .after (t := if v = some .ready ∧ (t.power.get p).reached ≠ some .ready then
    Machine.select p (onPower p (fun x => { x with reached := v }) t)
    else onPower p (fun x => { x with reached := v }) t) (by simp) ?_
  exact .ite (fun _ => .select (h.same rfl)) fun _ => h.same rfl

theorem NoNewJob.arbiterTakes {p : PortId} {b c : Condition} (h : NoNewJob s t) :
    NoNewJob s (arbiterTakes p b c t) :=
  .after (t := if c = .absent then Machine.endAllClaims p .deviceLost t else t)
    (by simp [Machine.arbiterTakes])
    (.ite (fun _ => h.endAllClaims) fun _ => h)

theorem NoNewJob.printerTakes {p : PortId} {c : Condition} (h : NoNewJob s t) :
    NoNewJob s (printerTakes p c t) := by
  unfold Machine.printerTakes
  split
  · exact h.abortJob.endInflightNow
  · exact h.endInflightNow.endQueue
  · exact h.endInflightNow
  · exact h.select
  · exact h

theorem NoNewJob.scannerTakes {p : PortId} {c : Condition} {k : PortCause} (h : NoNewJob s t) :
    NoNewJob s (scannerTakes p c k t) := by
  have gone : ∀ {u}, NoNewJob s u → NoNewJob s (documentGone p u) := .after (jobPool_documentGone ..)
  have silent : NoNewJob s (scanSilent p t) := by
    unfold scanSilent
    split
    · exact h
    · exact .endScanNow (h.same (by simp))
  unfold Machine.scannerTakes
  refine .ite (fun _ => gone h.endScanNow) fun _ => ?_
  split
  · exact silent
  · exact gone h.endScanNow
  · exact gone h.endScanNow
  · exact h

theorem NoNewJob.governorTakes {p : PortId} {c : Condition} (h : NoNewJob s t) :
    NoNewJob s (governorTakes p c t) := by
  have lost : NoNewJob s (Machine.setReached p none (onPower p (fun x => { x with moving := false }) t)) :=
    .setReached (h.same rfl)
  have transition : NoNewJob s (transitionLost p t) := .ite (fun _ => lost) fun _ => h
  unfold Machine.governorTakes
  split
  · exact transition
  · exact transition
  · exact lost
  · exact h

theorem NoNewJob.changeCondition {p : PortId} {c : Condition} {k : PortCause} {r : Option Byte}
    (h : NoNewJob s t) : NoNewJob s (changeCondition p c k r t) :=
  .governorTakes (.after (jobPool_touchTakes ..) (.scannerTakes (.printerTakes (.arbiterTakes
    (h.same (by simp))))))

theorem NoNewJob.identify {p : PortId} {k : PortCause} (h : NoNewJob s t) : NoNewJob s (identify p k t) :=
  .after (jobPool_sendCommand ..) h.changeCondition

theorem NoNewJob.classChanged {p : PortId} {k : PortCause} (h : NoNewJob s t) :
    NoNewJob s (classChanged p k t) :=
  .ite (fun _ => h.same (by simp)) fun _ =>
    .ite (fun _ => .changeCondition (h.same (by simp))) fun _ => .identify (h.same (by simp))

/-- An adapter frame, when what its owner does brings in no job. -/
theorem NoNewJob.adapterFrame {p : PortId} {a i : Bool} {ws : List Wait} {owner : State → State}
    (h : NoNewJob s t) (ho : ∀ u, NoNewJob s u → NoNewJob s (owner u)) :
    NoNewJob s (adapterFrame p a i ws owner t) := by
  have g : NoNewJob s (onWire p (fun w => { w with rx := [] }) t) := h.same rfl
  have absent : ∀ {u}, NoNewJob s u → NoNewJob s (absentFrame p a u) := fun hu =>
    .ite (fun _ => hu) fun _ => .ite (fun _ => hu.same rfl) fun _ => .ite (fun _ => hu.identify)
      fun _ => .ite (fun _ => hu.same (by simp)) fun _ => hu
  have back := NoNewJob.identify (p := p) (k := .adapterBack)
    (.after (jobPool_signOfLife p ws _) g)
  unfold Machine.adapterFrame
  refine .ite (fun _ => h) fun _ => ?_
  simp only
  split
  · exact absent g
  · exact .ite (fun _ => back) fun _ => ho _ back
  · exact ho _ (g.same rfl)

theorem NoNewJob.classFrame {p : PortId} {c : PortClass} {ws : List Wait} {owner : State → State}
    (h : NoNewJob s t) (ho : ∀ u, NoNewJob s u → NoNewJob s (owner u)) :
    NoNewJob s (classFrame p c ws owner t) :=
  .ite (fun _ => h.adapterFrame ho) fun _ => h.adapterFrame fun _ => id

/-! #### The transmitters, and the end of a command -/

theorem NoNewJob.lastForwarded {p : PortId} (h : NoNewJob s t) : NoNewJob s (lastForwarded p t) := by
  unfold Machine.lastForwarded
  split
  · exact h
  · next j hj =>
    refine .ite (fun _ => h) fun _ => ?_
    split
    · exact .after (jobPool_jobNews ..) (h.setInflight (by simp [hj]))
    · exact .after (jobPool_jobNews ..) (h.setInflight (by simp [hj]))
    · exact .after (jobPool_jobNews ..) (h.setInflight (by simp [hj]))
    · exact h

theorem NoNewJob.chunkTransmitted {p : PortId} {n : Nat} {b : Bool} (h : NoNewJob s t) :
    NoNewJob s (chunkTransmitted p n b t) := by
  unfold Machine.chunkTransmitted
  split
  · exact h
  · exact .ite (fun _ => h) fun _ => .ite (fun _ => .finishScan (h.same (by simp))) fun _ => h.same (by simp)

theorem NoNewJob.serveLink {l : LinkId} (h : NoNewJob s t) (hu : serveLink l t = some u) :
    NoNewJob s u := by
  have stream : ∀ p, NoNewJob s (sendStream l p t) := fun p => by
    unfold sendStream
    split
    · exact h
    · simp only
      split
      · exact h.same (by simp [creditTaken])
      · exact .chunkTransmitted (h.same (by simp [chunkTaken]))
      · exact h
  unfold Machine.serveLink at hu
  simp only at hu
  split at hu
  · split at hu
    · cases hu; exact h.same (jobPool_onLink ..)
    · split at hu <;> cases hu
      · exact h.same (jobPool_onLink ..)
      · exact stream _
      · exact stream _
      · exact h.same (jobPool_onLink ..)
  · cases hu

theorem NoNewJob.serveDevice {p : PortId} (h : NoNewJob s t) (hu : serveDevice p t = some u) :
    NoNewJob s u := by
  have stream : ∀ x, NoNewJob s (sendToDevice p x t) := fun x => by
    unfold sendToDevice
    simp only
    split
    · exact h.same (by simp [creditTaken])
    · exact .ite (fun _ => .lastForwarded (h.same (by simp [chunkTaken])))
        fun _ => h.same (by simp [chunkTaken])
    · exact h
  unfold Machine.serveDevice at hu
  simp only at hu
  split at hu
  · cases hu
  · split at hu
    · cases hu; exact h.same rfl
    · split at hu <;> cases hu
      exact stream _
    · cases hu

theorem NoNewJob.settle (n : Nat) (h : NoNewJob s t) : NoNewJob s (settle n t) := by
  induction n generalizing t with
  | zero => exact h
  | succ n ih =>
    refine .ite (fun _ => h) fun _ => ?_
    split
    · exact h
    · next u hu =>
      refine ih (.after (jobPool_closeEvent ..) ?_)
      unfold serveNext at hu
      split at hu
      · next hs =>
        cases hu
        obtain ⟨l, -, hl⟩ := List.exists_of_findSome?_eq_some hs
        exact h.serveLink hl
      · obtain ⟨p, -, hp⟩ := List.exists_of_findSome?_eq_some hu
        exact h.serveDevice hp

/-- The end of the event, and what the idle transmitters take. -/
theorem NoNewJob.finish {b : State} (h : NoNewJob s t) : NoNewJob s (finish b t) :=
  .settle 37 (h.same (jobPool_closeEvent ..))

end Sys2Proof.Safety
end

section
/-! Every command but SUBMIT and the resets brings in no job: first how a request passes on what its owner
does, then the owners, block by block, then the commands. -/

namespace Sys2Proof.Safety

open Sys2Proof.Machine

variable {s t u : State}

/-! ### How a request reaches its owner -/

/-- A property of states that is about the jobs alone. -/
def JobFact (P : State → Prop) : Prop := ∀ s t, jobPool t = jobPool s → P s → P t

theorem jobFact_noNewJob (s : State) : JobFact (NoNewJob s) := fun _ _ e h => h.same e

section

variable {P : State → Prop} {α : Type} {l : LinkId} {k : KioskId} {kind n : Byte} {b : Body α}
  {suits : PortClass → Bool}

theorem JobFact.linkFrame {down up : State → State} (hP : JobFact P) (h : P s)
    (hd : ∀ u, P u → P (down u)) (hu : ∀ u, P u → P (up u)) : P (linkFrame l down up s) := by
  unfold Machine.linkFrame
  split
  · exact h
  · split
    · exact hu _ (hP s _ (by simp [reload, received]) h)
    · exact hd _ (hP s _ (by simp [received]) h)

theorem JobFact.stopAndWait {checked : State → State} (hP : JobFact P) (h : P s)
    (hc : ∀ u, P u → P (checked u)) : P (stopAndWait l checked s) := by
  unfold Machine.stopAndWait
  split
  · exact hP s _ (jobPool_onLink ..) h
  · exact hc _ (hP s _ (jobPool_onLink ..) h)

theorem JobFact.request {checked : State → State} (hP : JobFact P) (h : P s)
    (hc : ∀ u, P u → P (checked u)) : P (request l checked s) :=
  hP.linkFrame h (fun _ => id) fun _ hu => hP.stopAndWait hu hc

theorem JobFact.refuse {c : ResultCode} (hP : JobFact P) (h : P s) : P (refuse l kind c s) :=
  hP s _ (jobPool_refuse ..) h

theorem JobFact.withBody {owner : α → State → State} (hP : JobFact P) (h : P s)
    (ho : ∀ x u, P u → P (owner x u)) : P (withBody l kind b owner s) := by
  cases b with
  | wrongLength => exact hP.refuse h
  | fields x => exact ho x s h

theorem JobFact.kioskRequest {owner : α → State → State} (hP : JobFact P) (h : P s)
    (ho : ∀ x u, P u → P (owner x u)) : P (kioskRequest k kind b owner s) := by
  refine hP.request h fun u hu => ?_
  unfold admittedOnly
  split
  · exact hP.withBody hu ho
  · exact hP.refuse hu

theorem JobFact.withKioskPort {owner : PortId → State → State} (hP : JobFact P) (h : P s)
    (ho : ∀ p u, P u → P (owner p u)) : P (withKioskPort k kind suits n owner s) := by
  unfold Machine.withKioskPort
  split
  · exact hP.refuse h
  · split
    · exact hP.refuse h
    · split
      · exact hP.refuse h
      · split
        · exact hP.refuse h
        · exact ho _ s h

theorem JobFact.kioskPortRequest {port : α → Byte} {owner : α → PortId → State → State} (hP : JobFact P)
    (h : P s) (ho : ∀ x p u, P u → P (owner x p u)) : P (kioskPortRequest k kind suits b port owner s) :=
  hP.kioskRequest h fun x _ hu => hP.withKioskPort hu (ho x)

theorem JobFact.staffRequest {owner : α → State → State} (hP : JobFact P) (h : P s)
    (ho : ∀ x u, P u → P (owner x u)) : P (staffRequest kind b owner s) :=
  hP.request h fun _ hu => hP.withBody hu ho

theorem JobFact.withPort {owner : PortId → State → State} (hP : JobFact P) (h : P s)
    (ho : ∀ p u, P u → P (owner p u)) : P (withPort kind n owner s) := by
  unfold Machine.withPort
  split
  · exact hP.refuse h
  · exact ho _ s h

theorem JobFact.withUsedPort {owner : PortId → State → State} (hP : JobFact P) (h : P s)
    (ho : ∀ p u, P u → P (owner p u)) : P (withUsedPort kind n owner s) :=
  hP.withPort h fun p u hu => by
    split
    · exact hP.refuse hu
    · exact ho p u hu

theorem JobFact.withSuitedPort {owner : PortId → State → State} (hP : JobFact P) (h : P s)
    (ho : ∀ p u, P u → P (owner p u)) : P (withSuitedPort kind suits n owner s) :=
  hP.withUsedPort h fun p u hu => by
    split
    · exact ho p u hu
    · exact hP.refuse hu

theorem JobFact.withKiosk {owner : KioskId → State → State} (hP : JobFact P) (h : P s)
    (ho : ∀ k u, P u → P (owner k u)) : P (withKiosk kind n owner s) := by
  unfold Machine.withKiosk
  split
  · exact hP.refuse h
  · exact ho _ s h

end

/-! ### Device Ports and Adapters -/

theorem NoNewJob.replaceConfig {p : PortId} {c : PortConfig} (h : NoNewJob s t) :
    NoNewJob s (replaceConfig p c t) := by
  have placed : NoNewJob s { t with configs := t.configs.put p c } := h.same rfl
  unfold Machine.replaceConfig
  exact .ite (fun _ => .classChanged (placed.same (by simp))) fun _ => placed.same (by simp)

theorem NoNewJob.portSetAsked {b : PortSetBody} {p : PortId} (h : NoNewJob s t) :
    NoNewJob s (portSetAsked b p t) := by
  unfold Machine.portSetAsked
  split
  · exact h.same (jobPool_refuse ..)
  · exact .ite (fun _ => h.same (jobPool_refuse ..)) fun _ => .after (jobPool_answer ..) h.replaceConfig

theorem NoNewJob.resetPort {p : PortId} (h : NoNewJob s t) : NoNewJob s (resetPort p t) := by
  refine .after (jobPool_answer ..) (.after (jobPool_sendCommand ..) (.ite (fun _ => ?_) fun _ => ?_))
  · exact h.same rfl
  · exact .changeCondition (h.same rfl)

theorem NoNewJob.checkAsked {n : Byte} {p : PortId} (h : NoNewJob s t) : NoNewJob s (checkAsked n p t) := by
  have starts : NoNewJob s (startCheck p n t) :=
    .after (jobPool_answer ..) (.after (jobPool_checkNews ..) (.after (jobPool_sendCommand ..)
      (.changeCondition (h.same rfl))))
  have refused : ∀ c, NoNewJob s (refuse .staff Kind.check c t) := fun _ => h.same (jobPool_refuse ..)
  exact .ite (fun _ => refused _) fun _ => .ite (fun _ => refused _) fun _ => .ite (fun _ => refused _)
    fun _ => .ite (fun _ => refused _) fun _ => .ite (fun _ => refused _) fun _ => starts

theorem NoNewJob.checkDone {p : PortId} (h : NoNewJob s t) : NoNewJob s (checkDone p t) :=
  .changeCondition (h.same (jobPool_endCheck ..))

theorem NoNewJob.echoed {p : PortId} {d : List Byte} (h : NoNewJob s t) : NoNewJob s (echoed p d t) := by
  have next : ∀ st, NoNewJob s (nextEcho p st t) := fun _ => h.same (by simp [nextEcho, onCheck])
  unfold Machine.echoed
  split
  · exact h
  · exact h
  · refine .ite (fun _ => .checkDone (h.same rfl)) fun _ => ?_
    split
    · exact next _
    · exact next _
    · exact next _
    · exact h.same (by simp [startTest, onCheck])

theorem NoNewJob.tested {p : PortId} {n : Byte} (h : NoNewJob s t) : NoNewJob s (tested p n t) := by
  unfold Machine.tested
  split
  · exact .checkDone (h.same rfl)
  · exact h

theorem NoNewJob.announced {p : PortId} (h : NoNewJob s t) : NoNewJob s (announced p t) := by
  unfold Machine.announced
  split
  · exact h.same (jobPool_sendCommand ..)
  · exact h.identify
  · exact h
  · exact h
  · exact h.changeCondition.identify

theorem NoNewJob.identified {p : PortId} {b : IdentBody} (h : NoNewJob s t) :
    NoNewJob s (identified p b t) :=
  .ite (fun _ => .ite (fun _ => .changeCondition (.setReached (h.same rfl)))
    fun _ => .changeCondition (h.same rfl)) fun _ => h

theorem NoNewJob.responseTimedOut {p : PortId} (h : NoNewJob s t) : NoNewJob s (responseTimedOut p t) :=
  .ite (fun _ => h.changeCondition) fun _ => h

theorem NoNewJob.adapterSilent {p : PortId} (h : NoNewJob s t) : NoNewJob s (adapterSilent p t) :=
  .ite (fun _ => .ite (fun _ => h.same rfl) fun _ => .changeCondition (h.same rfl)) fun _ => h

theorem NoNewJob.faultAtPort {p : PortId} {f : FaultKind} (h : NoNewJob s t) :
    NoNewJob s (faultAtPort p f t) := by
  unfold Machine.faultAtPort
  simp only
  split
  · exact .changeCondition (h.same rfl)
  · exact h.same (by simp)
  · exact h.same (by simp [onCheck])
  · exact h

theorem NoNewJob.jobFaulted {p : PortId} {f : FaultKind} (h : NoNewJob s t) :
    NoNewJob s (jobFaulted p f t) := by
  unfold Machine.jobFaulted
  split
  · exact h
  · next j hj =>
    have told : ∀ j' r, j'.id = j.id → NoNewJob s (jobNews p j' r (Machine.setInflight p j' t)) :=
      fun j' r e => .after (jobPool_jobNews ..) (h.setInflight (by simp [hj, e]))
    exact .ite (fun _ => .completeTake (told _ _ rfl)) fun _ => told _ _ rfl

theorem NoNewJob.faultTaken {p : PortId} {n : Byte} (h : NoNewJob s t) : NoNewJob s (faultTaken p n t) :=
  h.adapterFrame fun u hu => by
    have faulted : NoNewJob s (Machine.faultAtPort p (faultOf n) u) := hu.faultAtPort
    exact .ite (fun _ => faulted.jobFaulted) fun _ => faulted

theorem NoNewJob.clearedAtPort {p : PortId} (h : NoNewJob s t) : NoNewJob s (clearedAtPort p t) := by
  unfold Machine.clearedAtPort
  simp only
  split
  · exact .changeCondition (h.same rfl)
  · exact h.same (by simp)
  · exact h

theorem NoNewJob.jobCleared {p : PortId} (h : NoNewJob s t) : NoNewJob s (jobCleared p t) := by
  unfold Machine.jobCleared
  split
  · exact h
  · next j hj =>
    have cleared : NoNewJob s (Machine.setInflight p { j with fault := none } t) :=
      h.setInflight (by simp [hj])
    have resumes : NoNewJob s (resumeStalled p { j with fault := none }
        (Machine.setInflight p { j with fault := none } t)) := by
      refine .ite (fun _ => .after (jobPool_jobNews ..) (cleared.setInflight ?_)) fun _ => cleared
      simp
    exact .ite (fun _ => resumes) fun _ => .ite (fun _ => cleared.abortJob) fun _ =>
      .ite (fun _ => cleared.abortJob) fun _ => resumes

theorem NoNewJob.clearedTaken {p : PortId} (h : NoNewJob s t) : NoNewJob s (clearedTaken p t) :=
  h.adapterFrame fun u hu => by
    have cleared : NoNewJob s (Machine.clearedAtPort p u) := hu.clearedAtPort
    exact .ite (fun _ => cleared.jobCleared) fun _ => cleared

/-! ### Claims, power levels, staff takeover and hall closing -/

@[simp] theorem jobPool_claimChecks (k : KioskId) (p : PortId) (s : State) :
    jobPool (claimChecks k p s) = jobPool s := by
  simp [claimChecks, enterList]

theorem NoNewJob.releaseClaim {k : KioskId} {p : PortId} (h : NoNewJob s t) :
    NoNewJob s (releaseClaim k p t) := by
  unfold Machine.releaseClaim
  split
  · exact h.same (jobPool_refuse ..)
  · exact .after (jobPool_answer ..) h.endClaim

theorem NoNewJob.idleExpired {p : PortId} (h : NoNewJob s t) : NoNewJob s (idleExpired p t) := by
  unfold Machine.idleExpired
  split
  · exact .ite (fun _ => h.endClaim) fun _ => h
  · exact h

@[simp] theorem jobPool_limitAsked (b : LimitBody) (p : PortId) (s : State) :
    jobPool (limitAsked b p s) = jobPool s := by
  unfold limitAsked
  split <;> simp

theorem NoNewJob.levelReached {p : PortId} {n : Byte} (h : NoNewJob s t) :
    NoNewJob s (levelReached p n t) :=
  .ite (fun _ => .ite (fun _ => .identify (h.same rfl)) fun _ => .setReached (h.same rfl)) fun _ => h

theorem NoNewJob.resumeJob {p : PortId} (h : NoNewJob s t) : NoNewJob s (resumeJob p t) := by
  unfold Machine.resumeJob
  split
  · exact h
  · next j hj =>
    have given : ∀ j' : Job, j'.id = j.id → NoNewJob s (Machine.setInflight p j'
        (if j.holdSent then sendCommand p .printResume t else t)) := fun j' e =>
      .setInflight (h.same (by simp)) (by split <;> simp [hj, e])
    refine .ite (fun _ => .after (jobPool_jobNews ..) (given _ ?_)) fun _ => given _ rfl
    split <;> rfl

theorem NoNewJob.giveBackHeld {p : PortId} (h : NoNewJob s t) : NoNewJob s (giveBackHeld p t) := by
  have free : NoNewJob s (onTake p (fun _ => ⟨.free, t.shieldDeadline p⟩) t) := h.same rfl
  have stopped : NoNewJob s (if (onTake p (fun _ => ⟨.free, t.shieldDeadline p⟩) t).cls p = .scanner then
      Machine.abortStaffScan p .returned (onTake p (fun _ => ⟨.free, t.shieldDeadline p⟩) t)
      else onTake p (fun _ => ⟨.free, t.shieldDeadline p⟩) t) :=
    .ite (fun _ => free.abortStaffScan) fun _ => free
  have panel : ∀ {u}, NoNewJob s u → NoNewJob s (if u.cls p = .panel then holderChanged p u else u) :=
    fun hu => .ite (fun _ => hu.same (jobPool_holderChanged ..)) fun _ => hu
  unfold Machine.giveBackHeld
  refine .after (jobPool_takeNews ..) (.ite (fun _ => .select (.resumeJob ?_)) fun _ => ?_)
  all_goals
    split
    · exact .after (jobPool_claimNews ..) (.after (jobPool_setSuspended ..) (panel stopped))
    · exact .after (jobPool_promote ..) (panel stopped)

theorem NoNewJob.returnAsked {p : PortId} (h : NoNewJob s t) : NoNewJob s (returnAsked p t) := by
  have cancelled : ∀ b, NoNewJob s (cancelTake p b t) := fun _ =>
    .after (jobPool_takeNews ..) (.select (.after (jobPool_promote ..)
      (.ite (fun _ => .resumeJob (h.same rfl)) fun _ => h.same rfl)))
  unfold Machine.returnAsked
  split
  · exact .after (jobPool_answer ..) h.giveBackHeld
  · exact .after (jobPool_answer ..) (cancelled _)
  · exact h.same (jobPool_answer ..)

theorem NoNewJob.closeAsked (h : NoNewJob s t) : NoNewJob s (closeAsked t) := by
  have holder : ∀ p u, NoNewJob s u → NoNewJob s (closeHolder p u) := fun p u hu => by
    unfold closeHolder
    split
    · exact hu
    · exact .ite (fun _ => hu.same rfl) fun _ => hu.endClaim
  have closing : NoNewJob s { t with hall := .closing } := h.same rfl
  have ended := closing.forPorts (f := fun p => Machine.endWaiters p .closing) fun _ _ hu => hu.endWaiters
  exact .after (jobPool_answer ..) (.ite (fun _ => .after (jobPool_testQuiet ..)
    (.after (jobPool_hallNews ..) (ended.forPorts holder))) fun _ => h)

@[simp] theorem jobPool_openAsked (s : State) : jobPool (openAsked s) = jobPool s := by
  have opened : jobPool (forPorts promote (forPorts (fun p => onClaims p fun l =>
      l.map fun c => { c with closing := false }) { s with hall := .openHall })) = jobPool s := by
    rw [jobPool_forPorts jobPool_promote, jobPool_forPorts]
    · rfl
    · exact fun _ _ => jobPool_onClaims ..
  simp [openAsked, opened]

theorem NoNewJob.shieldExpired {p : PortId} (h : NoNewJob s t) : NoNewJob s (shieldExpired p t) := by
  refine .ite (fun _ => ?_) fun _ => h
  simp only
  split
  · exact .evaluateTake (h.same rfl)
  · exact h.same rfl

/-! ### Print Jobs -/

/-- Every job of a queue is QUEUED (R48). -/
def QueuesQueued (s : State) : Prop := ∀ p, ∀ j ∈ (s.printers.get p).queue, j.state = .queued

theorem NoNewJob.queuesQueued (h : NoNewJob s t) (hq : QueuesQueued s) : QueuesQueued t :=
  fun p j hj => hq p j ((h.fewer p).queue.subset hj)

theorem mem_jobs_of_findJob {n : Nat} {p : PortId} {j : Job} (h : s.findJob n = some (p, j)) :
    j ∈ Printer.jobs (s.printers.get p) := by
  obtain ⟨q, -, hq⟩ := List.exists_of_findSome?_eq_some h
  obtain ⟨i, hi, e⟩ := Option.map_eq_some_iff.1 hq
  cases e
  exact List.mem_of_find?_eq_some hi

/-- A live job that is not QUEUED is the job in flight, where queues hold QUEUED jobs only. -/
theorem inflight_of_not_queued {p : PortId} {j : Job} (hq : QueuesQueued s)
    (hj : j ∈ Printer.jobs (s.printers.get p)) (hs : j.state ≠ .queued) :
    (s.printers.get p).inflight = some j := by
  rcases List.mem_append.1 hj with hi | hi
  · exact Option.mem_toList.1 hi
  · exact absurd (hq p j hi) hs

theorem NoNewJob.cancelJob {p : PortId} {j : Job} {b : Bool} (h : NoNewJob s t) (hq : QueuesQueued t)
    (hj : j ∈ Printer.jobs (t.printers.get p)) : NoNewJob s (cancelJob p j b t).1 := by
  unfold Machine.cancelJob
  simp only
  split
  · exact h.endQueued
  · next hs => exact .abortJob (h.setInflight (by simp [inflight_of_not_queued hq hj hs]))

theorem NoNewJob.cancelAsked {k : KioskId} {n : Half} (h : NoNewJob s t) (hq : QueuesQueued t) :
    NoNewJob s (cancelAsked k n t) := by
  unfold Machine.cancelAsked
  split
  · exact h.same (jobPool_refuse ..)
  · next hj =>
    exact .ite (fun _ => h.same (jobPool_refuse ..)) fun _ =>
      .after (jobPool_answer ..) (h.cancelJob hq (mem_jobs_of_findJob hj))

theorem NoNewJob.dropAsked {n : Half} (h : NoNewJob s t) (hq : QueuesQueued t) :
    NoNewJob s (dropAsked n t) := by
  unfold Machine.dropAsked
  split
  · exact h.same (jobPool_refuse ..)
  · next hj => exact .after (jobPool_answer ..) (h.cancelJob hq (mem_jobs_of_findJob hj))

@[simp] theorem jobPool_jobAsked (k : KioskId) (n : Half) (s : State) :
    jobPool (jobAsked k n s) = jobPool s := by
  unfold jobAsked
  split <;> simp

@[simp] theorem jobPool_listQueue (n : Byte) (p : PortId) (s : State) :
    jobPool (listQueue n p s) = jobPool s := by
  simp [listQueue]

/-- What the owner does with the job in flight. -/
theorem NoNewJob.withInflight {p : PortId} {f : Job → State → State} (h : NoNewJob s t)
    (hf : ∀ j, (t.printers.get p).inflight = some j → NoNewJob s (f j t)) :
    NoNewJob s (withInflight p f t) := by
  unfold Machine.withInflight
  split
  · exact h
  · exact hf _ ‹_›

theorem NoNewJob.acceptedJob {p : PortId} {n : Byte} {j : Job} (h : NoNewJob s t)
    (hj : (t.printers.get p).inflight = some j) : NoNewJob s (acceptedJob p n j t) := by
  unfold Machine.acceptedJob
  refine .ite (fun _ => h) fun _ => ?_
  split
  · exact .after (jobPool_jobNews ..) (.after (jobPool_openStream ..) (h.setInflight (by simp [hj])))
  · exact .after (jobPool_openStream ..) (h.setInflight (by simp [hj]))
  · exact .after (jobPool_openStream ..) (h.setInflight (by simp [hj]))
  · exact h

theorem NoNewJob.progressed {p : PortId} {n : Half} {j : Job} (h : NoNewJob s t)
    (hj : (t.printers.get p).inflight = some j) : NoNewJob s (progressed p n j t) :=
  .ite (fun _ => h) fun _ => .after (jobPool_jobNews ..) (h.setInflight (by simp [hj]))

theorem NoNewJob.heldByAdapter {p : PortId} (h : NoNewJob s t) : NoNewJob s (heldByAdapter p t) := by
  unfold Machine.heldByAdapter
  split
  · exact h.enterStaffHold
  · exact h

theorem NoNewJob.gapExpired {p : PortId} (h : NoNewJob s t) : NoNewJob s (gapExpired p t) :=
  .ite (fun _ => .select (h.onPrinter (.gap _ none))) fun _ => h

/-! ### Scanning -/

@[simp] theorem jobPool_scanReady (l : LinkId) (m : ScanMode) (b : ScanBody) (p : PortId) (s : State) :
    jobPool (scanReady l m b p s) = jobPool s := by
  simp [scanReady, startScan]

@[simp] theorem jobPool_scanChecks (k : KioskId) (b : ScanBody) (p : PortId) (s : State) :
    jobPool (scanChecks k b p s) = jobPool s := by
  unfold scanChecks
  simp only
  split
  · simp
  · split
    · simp
    · split <;> simp

@[simp] theorem jobPool_staffScanChecks (b : ScanBody) (p : PortId) (s : State) :
    jobPool (staffScanChecks b p s) = jobPool s := by
  unfold staffScanChecks
  split <;> simp

theorem NoNewJob.stopScan {l : LinkId} {p : PortId} (h : NoNewJob s t) : NoNewJob s (stopScan l p t) :=
  .ite (fun _ => .after (jobPool_answer ..) h.abortScan) fun _ => h.same (jobPool_answer ..)

theorem NoNewJob.scanStopChecks {k : KioskId} {p : PortId} (h : NoNewJob s t) :
    NoNewJob s (scanStopChecks k p t) := by
  have active : NoNewJob s (activity p k t) := h.same (jobPool_activity ..)
  have refused : ∀ c, NoNewJob s (refuse (.kiosk k) Kind.scanStop c (activity p k t)) := fun _ =>
    active.same (jobPool_refuse ..)
  unfold Machine.scanStopChecks
  simp only
  split
  · exact refused _
  · exact .ite (fun _ => refused _) fun _ => .ite (fun _ => refused _) fun _ => active.stopScan

theorem NoNewJob.withScan {p : PortId} {f : Scan → State → State} (h : NoNewJob s t)
    (hf : ∀ x, NoNewJob s (f x t)) : NoNewJob s (withScan p f t) := by
  unfold Machine.withScan
  split
  · exact h
  · exact hf _

@[simp] theorem jobPool_acceptedScan (p : PortId) (x : Scan) (s : State) :
    jobPool (acceptedScan p x s) = jobPool s := by
  unfold acceptedScan
  split
  · simp only
    split <;> simp
  · rfl

@[simp] theorem jobPool_codeRead (p : PortId) (n : Byte) (text : List Byte) (x : Scan) (s : State) :
    jobPool (codeRead p n text x s) = jobPool s := by
  simp [codeRead]

theorem NoNewJob.scanEnded {p : PortId} {n : Byte} {sent : BitVec 32} {x : Scan} (h : NoNewJob s t) :
    NoNewJob s (scanEnded p n sent x t) := by
  have image : ∀ x, NoNewJob s (imageDone p x t) := fun x => by
    unfold imageDone
    split
    · exact h.finishScan
    · exact .ite (fun _ => h.same (by simp)) fun _ => h.finishScan
    · exact h
  unfold Machine.scanEnded
  refine .ite (fun _ => .leaveFlight (h.same (jobPool_setScan ..))) fun _ => .ite (fun _ => ?_)
    fun _ => h.finishScan
  split
  · exact h.finishScan
  · exact image _

@[simp] theorem jobPool_documentSensed (p : PortId) (b : Bool) (s : State) :
    jobPool (documentSensed p b s) = jobPool s := by
  unfold documentSensed
  split
  · rfl
  · simp only
    split <;> simp

/-! ### Links and profiles -/

@[simp] theorem jobPool_votesOfGone (k : KioskId) (s : State) : jobPool (votesOfGone k s) = jobPool s := by
  unfold votesOfGone
  rw [jobPool_forPorts]
  exact fun _ _ => jobPool_onPower ..

@[simp] theorem jobPool_closeStreamsOf (l : LinkId) (s : State) :
    jobPool (closeStreamsOf l s) = jobPool s := by
  unfold closeStreamsOf
  rw [jobPool_forPorts]
  exact fun _ _ => jobPool_onStream ..

theorem NoNewJob.departJobs {k : KioskId} {p : PortId} (h : NoNewJob s t) :
    NoNewJob s (departJobs k p t) := by
  unfold Machine.departJobs
  simp only
  split
  · exact .ite (fun _ => h.endQueuedOf.abortJob) fun _ => h.endQueuedOf
  · exact h.endQueuedOf

theorem NoNewJob.kioskDeparts {k : KioskId} (h : NoNewJob s t) : NoNewJob s (kioskDeparts k t) := by
  have claims : NoNewJob s (Machine.forPorts (fun p => Machine.endClaim p k none) t) :=
    h.forPorts fun _ _ hu => hu.endClaim
  unfold Machine.kioskDeparts
  refine .after (jobPool_votesOfGone ..) (.after (jobPool_orphanLink ..) ?_)
  exact claims.forPorts fun _ _ hu => hu.departJobs

theorem NoNewJob.staffDeparts (h : NoNewJob s t) : NoNewJob s (staffDeparts t) := by
  unfold Machine.staffDeparts
  refine .after (jobPool_onLoader ..) (.after (jobPool_orphanLink ..) ?_)
  exact h.forPorts fun _ _ hu => hu.abortStaffScan

theorem NoNewJob.linkDown {l : LinkId} {c : KioskCause} (h : NoNewJob s t) :
    NoNewJob s (linkDown l c t) := by
  have down : NoNewJob s (closeStreamsOf l (onLink l unitDown t)) := h.same (by simp)
  cases l with
  | kiosk k => exact .kioskDeparts (down.same (jobPool_kioskNews ..))
  | staff => exact down.staffDeparts

@[simp] theorem jobPool_staffGreeting (s : State) : jobPool (staffGreeting s) = jobPool s := by
  unfold staffGreeting
  simp only
  rw [jobPool_hubNews, jobPool_forPorts, jobPool_hallNews, jobPool_forPorts]
  · simp
  · simp

@[simp] theorem jobPool_linkUp (l : LinkId) (s : State) : jobPool (linkUp l s) = jobPool s := by
  cases l <;> simp [linkUp]

theorem NoNewJob.helloTaken {l : LinkId} {b : Body Unit} (h : NoNewJob s t) :
    NoNewJob s (helloTaken l b t) := by
  have f := jobFact_noNewJob s
  refine f.linkFrame h (fun u hu => ?_) fun u hu => f.stopAndWait hu fun v hv =>
    f.withBody hv fun _ w hw => ?_
  · split
    · exact hu.same (jobPool_linkUp ..)
    · exact hu
  · exact .after (jobPool_linkUp ..) (.after (jobPool_hallFalls ..) hw.linkDown)

theorem NoNewJob.frameEnds {l : LinkId} (h : NoNewJob s t) : NoNewJob s (frameEnds l t) := by
  unfold Machine.frameEnds
  split
  · exact h
  · exact .ite (fun _ => .linkDown (h.same (jobPool_onLink ..))) fun _ => h.same (jobPool_onLink ..)
  · exact h.same (jobPool_onLink ..)

theorem NoNewJob.linkSilent {l : LinkId} (h : NoNewJob s t) : NoNewJob s (linkSilent l t) :=
  .ite (fun _ => h.linkDown) fun _ => h

theorem NoNewJob.replaceProfile {k : KioskId} {f : Profile} {c : KioskCause} (h : NoNewJob s t) :
    NoNewJob s (replaceProfile k f c t) := by
  have off : ∀ {u}, NoNewJob s u → NoNewJob s (admissionOff k u) := fun hu =>
    .after (jobPool_cutKiosk ..) (.after (jobPool_votesOfGone ..)
      ((hu.forPorts fun _ _ hv => hv.endClaim).forPorts fun _ _ hv => hv.endQueuedOf))
  have reach : ∀ {u}, NoNewJob s u → NoNewJob s (reachLost k f u) := fun hu =>
    .after (by unfold reachLost; rw [jobPool_forPorts]; simp)
      (hu.forPorts fun _ _ hv => .ite (fun _ => hv) fun _ => hv.endClaim)
  have told : NoNewJob s (kioskNews k c { t with profiles := t.profiles.put k f }) :=
    .after (jobPool_kioskNews ..) (h.same rfl)
  have admitted : NoNewJob s (if (t.profiles.get k).admitted ∧ f.admitted = false then
      admissionOff k (kioskNews k c { t with profiles := t.profiles.put k f })
      else kioskNews k c { t with profiles := t.profiles.put k f }) :=
    .ite (fun _ => off told) fun _ => told
  exact .ite (fun _ => h) fun _ => .ite (fun _ => admitted) fun _ => reach admitted

theorem NoNewJob.admissionAsked {b : AdmitBody} {k : KioskId} (h : NoNewJob s t) :
    NoNewJob s (admissionAsked b k t) := by
  unfold Machine.admissionAsked
  split
  · exact h.same (jobPool_refuse ..)
  · exact .after (jobPool_answer ..) h.replaceProfile

theorem NoNewJob.profileAsked {b : ProfileBody} {k : KioskId} (h : NoNewJob s t) :
    NoNewJob s (profileAsked b k t) := by
  unfold Machine.profileAsked
  split
  · exact h.same (jobPool_refuse ..)
  · exact .after (jobPool_answer ..) h.replaceProfile

theorem NoNewJob.dropKiosk {k : KioskId} (h : NoNewJob s t) : NoNewJob s (dropKiosk k t) :=
  .after (jobPool_answer ..) (.ite (fun _ => h.linkDown) fun _ => h)

/-! ### Settings Memory and Start-up -/

@[simp] theorem jobPool_settlePort (x : Settings) (p : PortId) (s : State) :
    jobPool (settlePort x p s) = jobPool s := rfl

@[simp] theorem jobPool_startupEnds (a : MemoryAnswer) (b : Bool) (s : State) :
    jobPool (startupEnds a b s) = jobPool s := by
  unfold startupEnds
  split
  · simp only
    rw [jobPool_onLoader, jobPool_forPorts (jobPool_settlePort _)]
    rfl
  · rfl

@[simp] theorem jobPool_writingEnds (ok : Bool) (s : State) :
    jobPool (writingEnds ok s) = jobPool s := by
  unfold writingEnds
  split
  · exact (jobPool_deliver ..).trans rfl
  · rfl

theorem NoNewJob.loadPort {x : Settings} {p : PortId} (h : NoNewJob s t) :
    NoNewJob s (loadPort x p t) := by
  have settled : NoNewJob s (settlePort x p t) := h.same (jobPool_settlePort ..)
  exact .ite (fun _ => settled) fun _ => .classChanged (settled.same (by simp))

theorem NoNewJob.applyLoad {x : Settings} (h : NoNewJob s t) : NoNewJob s (applyLoad x t) := by
  unfold Machine.applyLoad
  refine .after (jobPool_hubNews ..) (.after (jobPool_onLoader ..) (.forPorts ?_ fun _ _ hu => hu.loadPort))
  have profiles : NoNewJob s
      (Machine.forKiosks (fun k => Machine.replaceProfile k (x.profiles.get k) .load) t) :=
    h.forKiosks fun _ _ hu => hu.replaceProfile
  have edge : ∀ u, NoNewJob s u → NoNewJob s { u with cueEdge := x.cueEdge } := fun _ hu => hu.same rfl
  exact edge _ profiles

theorem NoNewJob.loadEnds {a : MemoryAnswer} (h : NoNewJob s t) : NoNewJob s (loadEnds a t) := by
  have replied : ∀ {o u}, NoNewJob s u → NoNewJob s (replyLoad o u) := fun hu =>
    .ite (fun _ => hu.same (by simp)) fun _ => hu
  exact .ite (fun _ => replied (.ite (fun _ => .applyLoad (h.same rfl)) fun _ => h.same rfl)) fun _ => h

/-! ### Streams -/

theorem NoNewJob.pageEnded {p : PortId} (h : NoNewJob s t) : NoNewJob s (pageEnded p t) := by
  unfold Machine.pageEnded
  split
  · exact h
  · next j hj =>
    have counted : NoNewJob s (Machine.setInflight p { j with pageEnds := j.pageEnds + 1 } t) :=
      h.setInflight (by simp [hj])
    exact .ite (fun _ => h) fun _ => .ite (fun _ => counted.abortJob) fun _ => counted

theorem NoNewJob.chunkFromLink {l : LinkId} {p : PortId} {c : Chunk} (h : NoNewJob s t) :
    NoNewJob s (chunkFromLink l p c t) := by
  have buffered : NoNewJob s (bufferChunk p true c t) := h.same rfl
  unfold Machine.chunkFromLink
  split
  · exact h
  · exact .ite (fun _ => h) fun _ => .ite (fun _ => h) fun _ => .ite (fun _ => h.abortJob) fun _ =>
      .ite (fun _ => buffered.pageEnded) fun _ => buffered

theorem NoNewJob.chunkFromDevice {p : PortId} {c : Chunk} (h : NoNewJob s t) :
    NoNewJob s (chunkFromDevice p c t) := by
  unfold Machine.chunkFromDevice
  split
  · exact h
  · exact .ite (fun _ => h) fun _ => .ite (fun _ => h.abortScan) fun _ => h.same rfl

theorem NoNewJob.chunkReceived {w : Wire} {b : Body ChunkBody} (h : NoNewJob s t) :
    NoNewJob s (chunkReceived w b t) := by
  have f := jobFact_noNewJob s
  unfold Machine.chunkReceived
  split
  · refine f.linkFrame h (fun _ => id) fun u hu => ?_
    split
    · exact hu.chunkFromLink
    · exact hu
  · exact f.linkFrame h (fun _ => id) fun _ => id
  · exact h.adapterFrame fun u hu => .ite (fun _ => hu.chunkFromDevice) fun _ => hu
  · exact h.adapterFrame fun _ => id

@[simp] theorem jobPool_creditFromLink (l : LinkId) (p : PortId) (n : Nat) (s : State) :
    jobPool (creditFromLink l p n s) = jobPool s := by
  unfold creditFromLink
  split <;> simp

@[simp] theorem jobPool_creditFromDevice (p : PortId) (n : Nat) (s : State) :
    jobPool (creditFromDevice p n s) = jobPool s := by
  unfold creditFromDevice
  split <;> simp

theorem NoNewJob.creditReceived {l : LinkId} {b : Body CreditBody} (h : NoNewJob s t) :
    NoNewJob s (creditReceived l b t) := by
  refine (jobFact_noNewJob s).linkFrame h (fun _ => id) fun u hu => ?_
  split
  · exact hu
  · split
    · exact hu.same (jobPool_creditFromLink ..)
    · exact hu

theorem NoNewJob.kioskStalled {p : PortId} (h : NoNewJob s t) : NoNewJob s (kioskStalled p t) :=
  .ite (fun _ => h.abortJob) fun _ => h

theorem NoNewJob.pushStalled {p : PortId} (h : NoNewJob s t) : NoNewJob s (pushStalled p t) :=
  .ite (fun _ => h.abortScan) fun _ => h

/-! ### Touch: a sequence that matches may take a port, and a take may hold a job -/

@[simp] theorem jobPool_calibrateAsked (b : CalibrateBody) (p : PortId) (s : State) :
    jobPool (calibrateAsked b p s) = jobPool s := by
  unfold calibrateAsked
  split <;> simp

@[simp] theorem jobPool_routeSetAsked (b : RouteSetBody) (p : PortId) (s : State) :
    jobPool (routeSetAsked b p s) = jobPool s := by
  unfold routeSetAsked
  split <;> simp

@[simp] theorem jobPool_seqSetAsked (b : SeqSetBody) (p : PortId) (s : State) :
    jobPool (seqSetAsked b p s) = jobPool s := by
  unfold seqSetAsked
  split <;> simp

@[simp] theorem jobPool_cueSetAsked (b : Byte) (s : State) : jobPool (cueSetAsked b s) = jobPool s := by
  unfold cueSetAsked
  split
  · simp
  · unfold cuesGone
    rw [jobPool_answer, jobPool_forPorts]
    · rfl
    · exact fun _ _ => jobPool_onPanel ..

@[simp] theorem jobPool_endRepeated (p : PortId) (id : Fin 16) (s : State) :
    jobPool (endRepeated p id s) = jobPool s := by
  unfold endRepeated
  split <;> simp [removeContact]

theorem NoNewJob.sequenceRoute {p : PortId} {b : Bool} {n : Nat} {id : Fin 16} {a : Tick}
    (h : NoNewJob s t) : NoNewJob s (sequenceRoute p b n id a t).2 := by
  have matched : NoNewJob s (sequenceMatched p n id a t) := by
    have told : NoNewJob s (deliver .staff (.attendant ⟨p, .sequence, n, id, a, decide
        (((onPanel p (fun x => { x with seqState := .matched }) t).panels.get p).seq.response
          = .noticeTake)⟩) (onPanel p (fun x => { x with seqState := .matched }) t)) := h.same (by simp)
    exact .ite (fun _ => told.takePort) fun _ => told
  have step : NoNewJob s (sequenceStep p b n id a t) := by
    unfold sequenceStep
    simp only
    split
    · exact h.same rfl
    · exact h.same rfl
    · exact matched
    · exact h
  unfold Machine.sequenceRoute
  split
  · exact h
  · exact step

theorem NoNewJob.routeLookup {p : PortId} {n : Nat} {id : Fin 16} {a : Tick} (h : NoNewJob s t) :
    NoNewJob s (routeLookup p n id a t).2 := by
  unfold Machine.routeLookup
  split
  · exact h
  · exact h
  · exact h.same (jobPool_deliver ..)
  · exact h
  · exact h.sequenceRoute
  · exact h.sequenceRoute

theorem NoNewJob.touchedDown {p : PortId} {r : Report} (h : NoNewJob s t) :
    NoNewJob s (touchedDown p r t) := by
  have ended : NoNewJob s (endRepeated p r.id t) := h.same (jobPool_endRepeated ..)
  exact .ite (fun _ => ended) fun _ =>
    .after (jobPool_handReport ..) (.after (jobPool_onPanel ..) ended.routeLookup)

@[simp] theorem jobPool_touchedMove (p : PortId) (r : Report) (s : State) :
    jobPool (touchedMove p r s) = jobPool s := by
  unfold touchedMove
  split <;> simp

@[simp] theorem jobPool_touchedUp (p : PortId) (r : Report) (s : State) :
    jobPool (touchedUp p r s) = jobPool s := by
  unfold touchedUp
  split <;> simp [removeContact]

@[simp] theorem jobPool_disturb (p : PortId) (s : State) : jobPool (disturb p s) = jobPool s := by
  simp [disturb]

theorem NoNewJob.touchReport {p : PortId} {b : TouchBody} {f : Report → State → State} (h : NoNewJob s t)
    (hf : ∀ r, NoNewJob s (f r t)) : NoNewJob s (touchReport p b f t) := by
  refine .ite (fun _ => ?_) fun _ => h.same (jobPool_disturb ..)
  split
  · exact hf _
  · exact h

theorem NoNewJob.touchStrayTaken {p : PortId} (h : NoNewJob s t) : NoNewJob s (touchStrayTaken p t) :=
  h.classFrame fun _ hu => .ite (fun _ => hu) fun _ => hu.same (jobPool_disturb ..)

@[simp] theorem jobPool_cueChanged (b : Bool) (n : Tick) (s : State) :
    jobPool (cueChanged b n s) = jobPool s := by
  unfold cueChanged
  split
  · rfl
  · simp only
    split
    · rw [jobPool_forPorts]
      · rfl
      · simp
    · rfl

/-! ### The commands -/

/-- What the taking of a frame does brings in no job, but for a SUBMIT; HUB_RESET sets the jobs and the
counter anew. A CANCEL or JOB_DROP takes a job that is not QUEUED for the one in flight, which needs R48. -/
theorem frameTaken_noNewJob {i : Instr} (hs : ∀ k b, i ≠ .submit k b) (hr : ∀ b, i ≠ .hubReset b)
    (hq : QueuesQueued s) : NoNewJob s (frameTaken i s) := by
  have h := NoNewJob.refl s
  have f := jobFact_noNewJob s
  cases i with
  | submit k b => exact absurd rfl (hs k b)
  | hubReset b => exact absurd rfl (hr b)
  | hello l b => exact h.helloTaken
  | bye l b => exact f.request h fun _ hu => f.withBody hu fun _ _ hv => hv.same (jobPool_answer ..)
  | claim k b => exact f.kioskPortRequest h fun _ _ _ hu => hu.same (jobPool_claimChecks ..)
  | release k b => exact f.kioskPortRequest h fun _ _ _ hu => hu.releaseClaim
  | claimQuery k b => exact f.kioskPortRequest h fun _ _ _ hu => hu.same (by simp [queryClaim])
  | cancel k b => exact f.kioskRequest h fun _ _ hu => hu.cancelAsked (hu.queuesQueued hq)
  | jobQuery k b => exact f.kioskRequest h fun _ _ hu => hu.same (jobPool_jobAsked ..)
  | scan k b => exact f.kioskPortRequest h fun _ _ _ hu => hu.same (jobPool_scanChecks ..)
  | scanStop k b => exact f.kioskPortRequest h fun _ _ _ hu => hu.scanStopChecks
  | vote k b => exact f.kioskPortRequest h fun _ _ _ hu => hu.same (by simp [voteAsked])
  | portQuery l b =>
    cases l with
    | kiosk k =>
      exact f.request h fun _ hu => f.withBody hu fun _ _ hv => f.withKioskPort hv fun _ _ hw =>
        hw.same (by simp [kioskAsksPort])
    | staff =>
      exact f.staffRequest h fun _ _ hu => f.withPort hu fun _ _ hv => hv.same (jobPool_answer ..)
  | staffScan b =>
    exact f.staffRequest h fun _ _ hu => f.withSuitedPort hu fun _ _ hv =>
      hv.same (jobPool_staffScanChecks ..)
  | staffScanStop b =>
    exact f.staffRequest h fun _ _ hu => f.withSuitedPort hu fun _ _ hv =>
      .ite (fun _ => hv.same (jobPool_refuse ..)) fun _ => hv.stopScan
  | setAdmission b => exact f.staffRequest h fun _ _ hu => f.withKiosk hu fun _ _ hv => hv.admissionAsked
  | profileSet b => exact f.staffRequest h fun _ _ hu => f.withKiosk hu fun _ _ hv => hv.profileAsked
  | kioskQuery b =>
    exact f.staffRequest h fun _ _ hu => f.withKiosk hu fun _ _ hv => hv.same (jobPool_answer ..)
  | kioskDrop b => exact f.staffRequest h fun _ _ hu => f.withKiosk hu fun _ _ hv => hv.dropKiosk
  | portSet b => exact f.staffRequest h fun _ _ hu => f.withPort hu fun _ _ hv => hv.portSetAsked
  | calibrate b =>
    exact f.staffRequest h fun _ _ hu => f.withSuitedPort hu fun _ _ hv =>
      hv.same (jobPool_calibrateAsked ..)
  | routeSet b =>
    exact f.staffRequest h fun _ _ hu => f.withSuitedPort hu fun _ _ hv =>
      hv.same (jobPool_routeSetAsked ..)
  | routeQuery b =>
    exact f.staffRequest h fun _ _ hu => f.withSuitedPort hu fun _ _ hv => hv.same (jobPool_answer ..)
  | seqSet b =>
    exact f.staffRequest h fun _ _ hu => f.withSuitedPort hu fun _ _ hv =>
      hv.same (jobPool_seqSetAsked ..)
  | seqQuery b =>
    exact f.staffRequest h fun _ _ hu => f.withSuitedPort hu fun _ _ hv => hv.same (by simp [seqAsked])
  | cueSet b => exact f.staffRequest h fun _ _ hu => hu.same (jobPool_cueSetAsked ..)
  | take b =>
    exact f.staffRequest h fun _ _ hu => f.withUsedPort hu fun _ _ hv =>
      .after (jobPool_answer ..) hv.takePort
  | giveBack b => exact f.staffRequest h fun _ _ hu => f.withUsedPort hu fun _ _ hv => hv.returnAsked
  | closeHall b => exact f.staffRequest h fun _ _ hu => hu.closeAsked
  | openHall b => exact f.staffRequest h fun _ _ hu => hu.same (jobPool_openAsked ..)
  | limit b =>
    exact f.staffRequest h fun _ _ hu => f.withPort hu fun _ _ hv => hv.same (jobPool_limitAsked ..)
  | portReset b =>
    exact f.staffRequest h fun _ _ hu => f.withUsedPort hu fun _ _ hv =>
      .ite (fun _ => hv.same (jobPool_refuse ..)) fun _ => hv.resetPort
  | check b => exact f.staffRequest h fun _ _ hu => f.withUsedPort hu fun _ _ hv => hv.checkAsked
  | jobDrop b => exact f.staffRequest h fun _ _ hu => hu.dropAsked (hu.queuesQueued hq)
  | queueList b =>
    exact f.staffRequest h fun _ _ hu => f.withSuitedPort hu fun _ _ hv => hv.same (jobPool_listQueue ..)
  | claimList b =>
    exact f.staffRequest h fun _ _ hu => f.withSuitedPort hu fun _ _ hv => hv.same (by simp [listClaims])
  | save b => exact f.staffRequest h fun _ _ hu => hu.same (by simp [saveAsked])
  | load b => exact f.staffRequest h fun _ _ hu => hu.same (by simp [loadAsked])
  | hubIdent b => exact f.staffRequest h fun _ _ hu => hu.same (jobPool_answer ..)
  | unknownKind l kind => exact f.request h fun _ hu => hu.same (jobPool_refuse ..)
  | chunk w b => exact h.chunkReceived
  | credit l b => exact h.creditReceived
  | adapterCredit p b =>
    exact h.adapterFrame fun _ hu => .ite (fun _ => hu.same (jobPool_creditFromDevice ..)) fun _ => hu
  | announce p => exact h.adapterFrame fun _ hu => hu.announced
  | ident p b => exact h.adapterFrame fun _ hu => hu.identified
  | powerDone p level => exact h.adapterFrame fun _ hu => hu.levelReached
  | printAccept p credit => exact h.classFrame fun _ hu => hu.withInflight fun _ hj => hu.acceptedJob hj
  | progress p sheets => exact h.classFrame fun _ hu => hu.withInflight fun _ hj => hu.progressed hj
  | held p => exact h.classFrame fun _ hu => hu.heldByAdapter
  | printEnd p outcome sheets => exact h.classFrame fun _ hu => hu.withInflight fun _ _ => hu.endInflight
  | fault p kind => exact h.faultTaken
  | cleared p => exact h.clearedTaken
  | scanAccept p =>
    exact h.classFrame fun _ hu => hu.withScan fun _ => hu.same (jobPool_acceptedScan ..)
  | scanCode p symbology text =>
    exact h.classFrame fun _ hu => hu.withScan fun _ => hu.same (jobPool_codeRead ..)
  | scanEnd p outcome sent => exact h.classFrame fun _ hu => hu.withScan fun _ => hu.scanEnded
  | touchDown p b => exact h.classFrame fun _ hu => hu.touchReport fun _ => hu.touchedDown
  | touchMove p b =>
    exact h.classFrame fun _ hu => hu.touchReport fun _ => hu.same (jobPool_touchedMove ..)
  | touchUp p b => exact h.classFrame fun _ hu => hu.touchReport fun _ => hu.same (jobPool_touchedUp ..)
  | docSense p flags => exact h.classFrame fun _ hu => hu.same (jobPool_documentSensed ..)
  | testResult p flags => exact h.adapterFrame fun _ hu => hu.tested
  | echo p data => exact h.adapterFrame fun _ hu => hu.echoed
  | alive p => exact h.adapterFrame fun _ => id
  | adapterFrameWrongLength p kind => exact h.adapterFrame fun _ => id
  | adapterUnknownKind p kind => exact h.adapterFrame fun _ => id
  | _ => exact h

end Sys2Proof.Safety
end

section
/-! O9: the allocation of job ids (R45). The ids that the counter runs through are distinct within 4095 steps,
so that 64 live jobs leave one of 65 free; the job that an accepted SUBMIT brings in gets it; every other
command brings in no job, so that live ids stay distinct and in range. -/

namespace Sys2Proof.Safety

open Sys2Proof.Machine

variable {s t u : State}

/-! ### Live ids -/

theorem jobLive_iff {n : Nat} : s.jobLive n = true ↔ ∃ p, n ∈ idsOf (s.printers.get p) := by
  simp [State.jobLive, mem_idsOf, mem_allPorts]

/-- The ids of all live jobs, D0's first. -/
def liveIds (s : State) : List Nat := allPorts.flatMap fun p => idsOf (s.printers.get p)

theorem mem_liveIds {n : Nat} : n ∈ liveIds s ↔ s.jobLive n = true := by
  simp [liveIds, jobLive_iff, mem_allPorts]

theorem length_liveIds (s : State) : (liveIds s).length = s.jobCount := by
  simp [liveIds, State.jobCount, List.length_flatMap, idsOf]

/-- Live ids are distinct when each printer's are and no two printers share one. -/
theorem nodup_liveIds : (liveIds s).Nodup ↔ (∀ p, (idsOf (s.printers.get p)).Nodup)
    ∧ ∀ p q, p ≠ q → (idsOf (s.printers.get p)).Disjoint (idsOf (s.printers.get q)) := by
  have hn : allPorts.Nodup := List.nodup_finRange 12
  unfold liveIds
  rw [List.nodup_flatMap]
  refine and_congr ⟨fun h p => h p (mem_allPorts p), fun h p _ => h p⟩ ⟨fun h p q hpq => ?_, fun h => ?_⟩
  · have : Std.Symm (Function.onFun List.Disjoint fun p => idsOf (s.printers.get p)) :=
      ⟨fun _ _ => List.Disjoint.symm⟩
    exact h.forall (mem_allPorts p) (mem_allPorts q) hpq
  · exact hn.pairwise_of_forall_ne fun p _ q _ => h p q

theorem jobIdsUnique_iff : JobIdsUnique s ↔ (1 ≤ s.nextJob ∧ s.nextJob ≤ 4095)
    ∧ (∀ n, s.jobLive n = true → 1 ≤ n ∧ n ≤ 4095) ∧ (liveIds s).Nodup := by
  have hr : (∀ p, ∀ j ∈ Printer.jobs (s.printers.get p), 1 ≤ j.id ∧ j.id ≤ 4095) ↔
      ∀ n, s.jobLive n = true → 1 ≤ n ∧ n ≤ 4095 := by
    simp only [jobLive_iff, mem_idsOf]
    exact ⟨fun h n ⟨p, j, hj, e⟩ => e ▸ h p j hj, fun h p j hj => h j.id ⟨p, j, hj, rfl⟩⟩
  have he : (allPorts.flatMap fun p => Printer.jobs (s.printers.get p)).map (·.id) = liveIds s :=
    List.map_flatMap ..
  rw [JobIdsUnique, hr, he]

/-- A step that brings in no job keeps live ids distinct and in range. -/
theorem NoNewJob.jobIdsUnique (h : NoNewJob s t) (hs : JobIdsUnique s) : JobIdsUnique t := by
  obtain ⟨hn, hr, hd⟩ := jobIdsUnique_iff.1 hs
  obtain ⟨hp, hpq⟩ := nodup_liveIds.1 hd
  have sub : ∀ p, idsOf (t.printers.get p) ⊆ idsOf (s.printers.get p) := fun p => (h.fewer p).ids.subset
  refine jobIdsUnique_iff.2 ⟨h.nextJob ▸ hn, fun n hl => ?_, nodup_liveIds.2 ⟨fun p => ?_, fun p q e => ?_⟩⟩
  · obtain ⟨p, hm⟩ := jobLive_iff.1 hl
    exact hr n (jobLive_iff.2 ⟨p, sub p hm⟩)
  · obtain ⟨l, hperm, hsub⟩ := (h.fewer p).ids
    exact hperm.nodup (hsub.nodup (hp p))
  · exact fun n hm hm' => hpq p q e (sub p hm) (sub q hm')

/-! ### The ids that the counter runs through -/

theorem idAt_range (s : State) (i : Nat) : 1 ≤ idAt s i ∧ idAt s i ≤ 4095 := by
  unfold idAt
  omega

theorem idAt_zero (h : 1 ≤ s.nextJob ∧ s.nextJob ≤ 4095) : idAt s 0 = s.nextJob := by
  unfold idAt
  omega

theorem nextId_eq {n : Nat} (h : n ≤ 4095) : nextId n = n % 4095 + 1 := by
  unfold nextId
  split <;> omega

theorem nextId_idAt (h : 1 ≤ s.nextJob) (i : Nat) : nextId (idAt s i) = idAt s (i + 1) := by
  rw [nextId_eq (idAt_range s i).2]
  unfold idAt
  omega

theorem idAt_injective (h : 1 ≤ s.nextJob) {i j : Nat} (hi : i < 65) (hj : j < 65)
    (e : idAt s i = idAt s j) : i = j := by
  unfold idAt at e
  omega

/-- With at most 64 live jobs one of 65 ids from the counter on is free. -/
theorem exists_free_idAt (hc : s.jobCount ≤ 64) (hn : 1 ≤ s.nextJob) :
    ∃ i < 65, s.jobLive (idAt s i) = false := by
  by_contra! hall
  have tried : ((List.range 65).map (idAt s)).Nodup :=
    List.Nodup.map_on (fun i hi j hj => idAt_injective hn (List.mem_range.1 hi) (List.mem_range.1 hj))
      List.nodup_range
  have sub : (List.range 65).map (idAt s) ⊆ liveIds s := fun n hm => by
    obtain ⟨i, hi, rfl⟩ := List.mem_map.1 hm
    exact mem_liveIds.2 (by simpa using hall i (List.mem_range.1 hi))
  have := (List.subperm_of_subset tried sub).length_le
  simp only [List.length_map, List.length_range, length_liveIds] at this
  omega

/-- The id that SUBMIT takes is the first free one from the counter on. -/
theorem freshId_eq_idAt (hc : s.jobCount ≤ 64) (hn : 1 ≤ s.nextJob) : ∃ i, i < 65 ∧ freshId s = idAt s i
    ∧ s.jobLive (idAt s i) = false ∧ ∀ j < i, s.jobLive (idAt s j) = true := by
  obtain ⟨i, hi, hf⟩ := exists_free_idAt hc hn
  have found : ((List.range 65).find? fun i => !s.jobLive (idAt s i)).isSome :=
    List.find?_isSome.2 ⟨i, List.mem_range.2 hi, by simp [hf]⟩
  obtain ⟨m, hm⟩ := Option.isSome_iff_exists.1 found
  obtain ⟨hfree, hlt, hbefore⟩ := List.find?_range_eq_some.1 hm
  refine ⟨m, List.mem_range.1 hlt, ?_, by simpa using hfree, fun j hj => by simpa using hbefore j hj⟩
  simp [freshId, List.find?_map, hm]

theorem freshId_range (hc : s.jobCount ≤ 64) (hn : 1 ≤ s.nextJob) : 1 ≤ freshId s ∧ freshId s ≤ 4095 := by
  obtain ⟨i, -, e, -, -⟩ := freshId_eq_idAt hc hn
  exact e ▸ idAt_range s i

theorem freshId_not_live (hc : s.jobCount ≤ 64) (hn : 1 ≤ s.nextJob) : s.jobLive (freshId s) = false := by
  obtain ⟨i, -, e, hfree, -⟩ := freshId_eq_idAt hc hn
  exact e ▸ hfree

theorem freshId_not_mem (hc : s.jobCount ≤ 64) (hn : 1 ≤ s.nextJob) (p : PortId) :
    freshId s ∉ idsOf (s.printers.get p) := fun hm =>
  Bool.false_ne_true ((freshId_not_live hc hn).symm.trans (jobLive_iff.2 ⟨p, hm⟩))

/-- The allocation's search from some id on, when the free id lies some steps ahead. -/
theorem freeId_idAt (hn : 1 ≤ s.nextJob) {k i a : Nat} (hk : i ≤ k)
    (hl : ∀ j < i, s.jobLive (idAt s (a + j)) = true) (hf : s.jobLive (idAt s (a + i)) = false) :
    s.freeId k (idAt s a) = idAt s (a + i) := by
  induction k generalizing i a with
  | zero =>
    obtain rfl : i = 0 := by omega
    rfl
  | succ k ih =>
    unfold State.freeId
    cases i with
    | zero => rw [if_neg (by simpa using hf)]; rfl
    | succ i =>
      rw [if_pos (by simpa using hl 0 (by omega)), nextId_idAt hn, ih (by omega) (i := i) (fun j hj => ?_) ?_]
      · rw [Nat.add_right_comm, Nat.add_assoc]
      · simpa [Nat.add_right_comm, Nat.add_assoc] using hf
      · simpa [Nat.add_right_comm, Nat.add_assoc] using hl (j + 1) (by omega)

/-- The allocation's search finds the fresh id (R45). -/
theorem freeId_eq_freshId (hc : s.jobCount ≤ 64) (hn : 1 ≤ s.nextJob ∧ s.nextJob ≤ 4095) :
    s.freeId idTries s.nextJob = freshId s := by
  obtain ⟨i, hi, e, hf, hl⟩ := freshId_eq_idAt hc hn.1
  have h := freeId_idAt hn.1 (k := idTries) (a := 0) hi.le (by simpa using hl) (by simpa using hf)
  rwa [idAt_zero hn, Nat.zero_add, ← e] at h

/-! ### An accepted SUBMIT -/

/-- The hub with the job of an accepted SUBMIT in the queue, before a selection. -/
def jobPlaced (k : KioskId) (b : SubmitBody) (p : PortId) (s : State) : State :=
  onPrinter p (fun x => { x with queue := x.queue ++ [newJob k b (freshId s) s.tick] })
    { s with nextJob := nextId (freshId s) }

theorem jobPool_acceptJob {k : KioskId} {b : SubmitBody} {p : PortId} (hc : s.jobCount ≤ 64)
    (hn : 1 ≤ s.nextJob ∧ s.nextJob ≤ 4095) :
    jobPool (acceptJob k b p s) = jobPool (select p (jobPlaced k b p s)) := by
  unfold acceptJob jobPlaced
  rw [freeId_eq_freshId hc hn]
  exact jobPool_answer ..

theorem idsOf_jobPlaced (k : KioskId) (b : SubmitBody) (p q : PortId) (s : State) :
    idsOf ((jobPlaced k b p s).printers.get q) =
      idsOf (s.printers.get q) ++ if q = p then [freshId s] else [] := by
  by_cases h : q = p <;> simp [jobPlaced, h, idsOf, Printer.jobs, newJob]

/-- A selection loses no job of its port. -/
theorem mem_idsOf_select {p : PortId} {n : Nat} (h : n ∈ idsOf (s.printers.get p)) :
    n ∈ idsOf ((select p s).printers.get p) := by
  obtain e | ⟨j, hj, hx, e⟩ := select_cases p s
  · rwa [← jobPool_snd, e]
  · have hq : n ∈ (s.printers.get p).queue.map (·.id) := by simpa [idsOf, Printer.jobs, hx] using h
    rw [← jobPool_snd, e]
    by_cases hn : n = j.id
    · simp [idsOf, Printer.jobs, hn]
    · obtain ⟨i, hi, rfl⟩ := List.mem_map.1 hq
      simpa [idsOf, Printer.jobs, hn] using ⟨i, ⟨hi, hn⟩, rfl⟩

/-! ### Every command keeps live ids distinct and in range -/

/-- Live ids are distinct and in range, and every job of a queue is QUEUED (R45, R48). -/
structure JobsSound (s : State) : Prop where
  ids : JobIdsUnique s
  queued : QueuesQueued s

theorem NoNewJob.jobsSound (h : NoNewJob s t) (hs : JobsSound s) : JobsSound t :=
  ⟨h.jobIdsUnique hs.ids, h.queuesQueued hs.queued⟩

theorem jobFact_jobsSound : JobFact JobsSound := fun s _ e => NoNewJob.jobsSound ((NoNewJob.refl s).same e)

theorem jobIdsUnique_jobPlaced {k : KioskId} {b : SubmitBody} {p : PortId} (h : JobIdsUnique s)
    (hc : s.jobCount ≤ 64) : JobIdsUnique (jobPlaced k b p s) := by
  obtain ⟨hn, hr, hd⟩ := jobIdsUnique_iff.1 h
  obtain ⟨hp, hpq⟩ := nodup_liveIds.1 hd
  have range := freshId_range hc hn.1
  have fresh := freshId_not_mem hc hn.1
  refine jobIdsUnique_iff.2 ⟨?_, fun n hl => ?_, nodup_liveIds.2 ⟨fun q => ?_, fun q r hqr => ?_⟩⟩
  · show 1 ≤ nextId (freshId s) ∧ nextId (freshId s) ≤ 4095
    rw [nextId_eq range.2]
    omega
  · obtain ⟨q, hm⟩ := jobLive_iff.1 hl
    rw [idsOf_jobPlaced, List.mem_append] at hm
    rcases hm with hm | hm
    · exact hr n (jobLive_iff.2 ⟨q, hm⟩)
    · split at hm
      · rwa [List.mem_singleton.1 hm]
      · cases hm
  · rw [idsOf_jobPlaced]
    split
    · exact (hp q).append (List.nodup_singleton _) (List.disjoint_singleton.2 (fresh q))
    · simpa using hp q
  · simp only [idsOf_jobPlaced]
    split <;> split
    · subst_vars; exact absurd rfl hqr
    · simpa using ⟨hpq q r hqr, fresh r⟩
    · simpa using ⟨hpq q r hqr, fresh q⟩
    · simpa using hpq q r hqr

theorem queuesQueued_jobPlaced {k : KioskId} {b : SubmitBody} {p : PortId} (h : QueuesQueued s) :
    QueuesQueued (jobPlaced k b p s) := fun q j hj => by
  by_cases hqp : q = p
  · subst hqp
    have hj : j ∈ (s.printers.get q).queue ∨ j = newJob k b (freshId s) s.tick := by
      simpa [jobPlaced] using hj
    rcases hj with hj | rfl
    · exact h q j hj
    · rfl
  · exact h q j (by simpa [jobPlaced, hqp] using hj)

theorem JobsSound.submitChecks {k : KioskId} {b : SubmitBody} {p : PortId} (h : JobsSound s) :
    JobsSound (submitChecks k b p s) := by
  have refused : ∀ c, JobsSound (refuse (.kiosk k) Kind.submit c s) := fun _ => jobFact_jobsSound.refuse h
  unfold Machine.submitChecks
  simp only
  split_ifs with _ _ _ _ hc
  · exact refused _
  · exact refused _
  · exact refused _
  · exact refused _
  · exact refused _
  · have hc : s.jobCount ≤ 64 := by simp only [Config.jobPool] at hc; omega
    have placed : JobsSound (jobPlaced k b p s) :=
      ⟨jobIdsUnique_jobPlaced h.ids hc, queuesQueued_jobPlaced h.queued⟩
    exact jobFact_jobsSound _ _ (jobPool_acceptJob hc h.ids.1) ((NoNewJob.refl _).select.jobsSound placed)

theorem jobsSound_restarted (s : State) : JobsSound (restarted s) := by
  have reset : ∀ p, (restarted s).printers.get p = Printer.reset := fun p => Table.get_fill ..
  have noIds : ∀ p, idsOf ((restarted s).printers.get p) = [] := fun p => by rw [reset]; rfl
  refine ⟨jobIdsUnique_iff.2 ⟨⟨le_refl 1, Nat.le_of_ble_eq_true rfl⟩, fun n hl => ?_,
    nodup_liveIds.2 ⟨fun p => ?_, fun p q _ => ?_⟩⟩, fun p j hj => ?_⟩
  · obtain ⟨p, hm⟩ := jobLive_iff.1 hl
    simp [noIds] at hm
  · simp [noIds]
  · simp [noIds]
  · simp [reset, Printer.reset] at hj

theorem JobsSound.frameTaken (h : JobsSound s) (i : Instr) : JobsSound (frameTaken i s) := by
  by_cases hs : ∃ k b, i = .submit k b
  · obtain ⟨k, b, rfl⟩ := hs
    exact jobFact_jobsSound.kioskPortRequest h fun _ _ _ hu => hu.submitChecks
  · by_cases hr : ∃ b, i = .hubReset b
    · obtain ⟨b, rfl⟩ := hr
      exact jobFact_jobsSound.staffRequest h fun _ u _ => jobsSound_restarted u
    · exact (frameTaken_noNewJob (fun k b e => hs ⟨k, b, e⟩) (fun b e => hr ⟨b, e⟩) h.queued).jobsSound h

/-- The frames that a discarded frame hid are taken in turn. -/
theorem JobsSound.huntedFrames {w : Wire} (fs : List Frame) {left : List Byte} (h : JobsSound s) :
    JobsSound (huntedFrames w fs left s) := by
  induction fs generalizing s left with
  | nil =>
    unfold Machine.huntedFrames
    split
    · exact h
    · exact jobFact_jobsSound s _ (by cases w <;> simp [keepBytes]) h
  | cons f fs ih =>
    refine ih ?_
    unfold huntedFrame
    split
    · exact jobFact_jobsSound _ _ (jobPool_closeEvent ..) (h.frameTaken _)
    · split
      · exact jobFact_jobsSound _ _ (jobPool_closeEvent ..) ((NoNewJob.refl s).touchStrayTaken.jobsSound h)
      · exact jobFact_jobsSound _ _ (jobPool_closeEvent ..) h

theorem JobsSound.finish {b : State} (h : JobsSound t) : JobsSound (finish b t) :=
  (NoNewJob.refl t).finish.jobsSound h

theorem JobsSound.of_next (h : JobsSound u)
    (e : (.next u : Host.Outcome State Fault Refusal) = .next t) : JobsSound t :=
  Host.Outcome.next.inj e ▸ h

/-- Every command keeps live ids distinct and in range, and queued jobs QUEUED (R45, R48). -/
theorem JobsSound.exec {c : Instr} (h : JobsSound s) (e : exec c s = .next t) : JobsSound t := by
  have frame := h.frameTaken c
  have n := NoNewJob.refl s
  have ended : ∀ u, NoNewJob s u → JobsSound (Machine.finish s u) := fun _ hu => (hu.jobsSound h).finish
  cases c with
  | powerOn => exact (jobsSound_restarted s).of_next e
  | resetLine => exact (jobsSound_restarted s).of_next e
  | startupReadEnds a b => exact (ended _ (n.same (jobPool_startupEnds ..))).of_next e
  | discardedFrame w bytes =>
    have taken : JobsSound (bytesReceived w bytes s) := by
      unfold bytesReceived
      split
      · exact h
      · exact h.huntedFrames _
    exact taken.finish.of_next e
  | cueEdge b n' => exact (ended _ (n.same (jobPool_cueChanged ..))).of_next e
  | idleExpiry p => exact (ended _ n.idleExpired).of_next e
  | shieldExpiry p => exact (ended _ n.shieldExpired).of_next e
  | gapExpiry p => exact (ended _ n.gapExpired).of_next e
  | kioskStall p => exact (ended _ n.kioskStalled).of_next e
  | pushStall p => exact (ended _ n.pushStalled).of_next e
  | cueSaturated p => exact (ended _ (n.same (by simp [cueSaturates]))).of_next e
  | seqExpiry p => exact (ended _ (n.same (by simp [seqExpired]))).of_next e
  | responseTimeout p => exact (ended _ n.responseTimedOut).of_next e
  | adapterSilence p => exact (ended _ n.adapterSilent).of_next e
  | clearSpacingExpiry p => exact (ended _ (n.same (by simp [clearSpacingExpired]))).of_next e
  | linkSilence l => exact (ended _ n.linkSilent).of_next e
  | frameSent l => exact (ended _ n.frameEnds).of_next e
  | deviceFrameSent p => exact (ended (deviceFrameEnds p s) (n.same rfl)).of_next e
  | writingEnds ok => exact (ended _ (n.same (jobPool_writingEnds ..))).of_next e
  | loadReadEnds a => exact (ended _ n.loadEnds).of_next e
  | _ => exact frame.finish.of_next e

/-! ### The statement -/

theorem linkTakes_jobCount (l : LinkId) (s : State) : (linkTakes l s).jobCount = s.jobCount := by
  simp [State.jobCount]

theorem linkTakes_freshId (l : LinkId) (s : State) : freshId (linkTakes l s) = freshId s := by
  have ids : idAt (linkTakes l s) = idAt s := funext fun i => by simp [idAt]
  have live : (linkTakes l s).jobLive = s.jobLive := funext fun n => by simp [State.jobLive]
  simp only [freshId, ids, live]

/-- A SUBMIT that passes every check is accepted (R46). -/
theorem submitChecks_accepts {k : KioskId} {b : SubmitBody} {p : PortId} (hh : s.hall = .openHall)
    (hp : s.cond p ≠ .absent) (hb : b.pages ≠ 0) (ht : ∀ y ∈ b.tray, y.toNat ≤ 3)
    (hk : s.kioskJobs k < 4) (hc : s.jobCount < 64) :
    submitChecks k b p s = acceptJob k b p s := by
  have tray : (b.tray.any fun t => 3 < t.toNat) = false := by simpa [Option.any_eq_false] using ht
  have kiosk : ¬Config.jobsPerKiosk ≤ s.kioskJobs k := by simp only [Config.jobsPerKiosk]; omega
  have pool : ¬Config.jobPool ≤ s.jobCount := by simp only [Config.jobPool]; omega
  simp only [submitChecks, hh, hp, hb, tray, kiosk, pool, ne_eq, not_true_eq_false, Bool.false_eq_true,
    or_self, if_false]

/-- An accepted SUBMIT takes the fresh id, and sets the counter behind it (R45, R47). -/
theorem acceptJob_takes_freshId {k : KioskId} {b : SubmitBody} {p : PortId} (hc : s.jobCount ≤ 64)
    (hn : 1 ≤ s.nextJob ∧ s.nextJob ≤ 4095) :
    (acceptJob k b p s).nextJob = freshId s % 4095 + 1
      ∧ freshId s ∈ idsOf ((acceptJob k b p s).printers.get p)
      ∧ ((acceptJob k b p s).kiosks.get k).reply.map (·.code) = some .ok := by
  have e := jobPool_acceptJob (k := k) (b := b) (p := p) hc hn
  refine ⟨?_, ?_, ?_⟩
  · have selected : NoNewJob (jobPlaced k b p s) (select p (jobPlaced k b p s)) := (NoNewJob.refl _).select
    calc (acceptJob k b p s).nextJob
        = (select p (jobPlaced k b p s)).nextJob := congrArg Prod.fst e
      _ = nextId (freshId s) := selected.nextJob
      _ = freshId s % 4095 + 1 := nextId_eq (freshId_range hc hn.1).2
  · rw [← jobPool_snd, e]
    exact mem_idsOf_select (by simp [idsOf_jobPlaced])
  · simp [acceptJob, answer, reply, onLink]

/-- Power-on, the reset line and HUB_RESET set the counter to 1 (R45, R187). -/
theorem nextJob_finish_restarted {b : State} (s : State) : (finish b (restarted s)).nextJob = 1 := by
  have ended : NoNewJob (restarted s) (finish b (restarted s)) := (NoNewJob.refl _).finish
  exact ended.nextJob.trans rfl

/-- The end of a LOAD's read leaves the counter (R45). -/
theorem nextJob_finish_loadEnds {b : State} (a : MemoryAnswer) (s : State) :
    (finish b (loadEnds a s)).nextJob = s.nextJob := by
  have ended : NoNewJob s (finish b (loadEnds a s)) := (NoNewJob.refl s).loadEnds.finish
  exact ended.nextJob

/-- Settles O9. The allocation finds its id among 65, for the live ids are 64 at most (`exists_free_idAt`);
that live ids stay distinct is `JobsSound.exec`, where only an accepted SUBMIT brings in an id. -/
theorem freshJobIds : Obligations.FreshJobIds := by
  refine ⟨fun s hc hu => ?_, fun k p b s hport hl hm hh hp hb ht hk hc hu => ?_, fun s t h => ?_,
    fun a s t e => ?_, fun c s t hb hu e => ?_⟩
  · obtain ⟨⟨hn, -⟩, -⟩ := hu
    obtain ⟨i, hi, e, -, hlive⟩ := freshId_eq_idAt hc hn
    obtain ⟨h1, h2⟩ := freshId_range hc hn
    exact ⟨h1, h2, freshId_not_live hc hn, i, hi, e, hlive⟩
  · have taken : submitTaken k (.fields b) s = acceptJob k b p (linkTakes (.kiosk k) s) := by
      unfold submitTaken
      rw [kioskPortRequest_passes _ _ hport hl hm]
      exact submitChecks_accepts (by simpa using hh) (by simpa using hp) hb ht
        (by simpa [State.kioskJobs] using hk) (by rwa [linkTakes_jobCount])
    refine ⟨_, rfl, ?_⟩
    have accepted := acceptJob_takes_freshId (s := linkTakes (.kiosk k) s) (k := k) (b := b) (p := p)
      (by rw [linkTakes_jobCount]; omega) (by simpa using hu.1)
    rw [linkTakes_freshId] at accepted
    rw [taken]
    exact accepted
  · rcases h with e | e | ⟨hl, e⟩
    · exact Host.Outcome.next.inj e ▸ rfl
    · exact Host.Outcome.next.inj e ▸ rfl
    · have reset : hubResetTaken (.fields ()) s = restarted (linkTakes .staff s) :=
        staffRequest_passes _ _ hl
      have e : finish s (hubResetTaken (.fields ()) s) = t := Host.Outcome.next.inj e
      rw [← e, reset, nextJob_finish_restarted]
  · have e : finish s (loadEnds a s) = t := Host.Outcome.next.inj e
    rw [← e, nextJob_finish_loadEnds]
  · obtain ⟨-, -, hqueued, -⟩ := hb
    exact (JobsSound.exec ⟨hu, hqueued⟩ e).ids

end Sys2Proof.Safety
end

section
/-! THE ROUTE ENTRY AND THE ZONE (R112): what the comparison of each kind answers, and the reading of a mask
bit by bit. -/
namespace Sys2Proof.Safety

open Sys2Proof.Machine

/-- A RANGE entry is compared with its two bounds (R112). -/
theorem routeMatches_range {e : RouteEntry} {z : Nat} (h : e.kind = .range) :
    routeMatches e z = true ↔ e.z1.toNat ≤ z ∧ z ≤ e.z2.toNat := by
  simp [routeMatches, h]

/-- A PAIR entry is compared with its two values (R112). -/
theorem routeMatches_pair {e : RouteEntry} {z : Nat} (h : e.kind = .pair) :
    routeMatches e z = true ↔ z = e.z1.toNat ∨ z = e.z2.toNat := by
  simp [routeMatches, h]

/-- A MASK entry is compared under its mask (R112). -/
theorem routeMatches_mask {e : RouteEntry} {z : Nat} (h : e.kind = .mask) :
    routeMatches e z = true ↔ BitVec.ofNat 8 z &&& e.z2 = e.z1 &&& e.z2 := by
  simp [routeMatches, h]

/-- Two words agree under a mask exactly when they agree in each bit the mask holds. -/
theorem and_mask_eq_iff {w : Nat} {x y m : BitVec w} :
    x &&& m = y &&& m ↔ ∀ i < w, m.getLsbD i = true → x.getLsbD i = y.getLsbD i := by
  rw [BitVec.eq_of_getLsbD_eq_iff]
  refine forall₂_congr fun i _ => ?_
  cases hm : m.getLsbD i with
  | false => simp [hm]
  | true => simp [hm]

/-- The bits of a MASK entry's comparison are those of the zone itself: bits 0 to 7 of its byte. -/
theorem routeMatches_mask_bits {e : RouteEntry} {z : Nat} (h : e.kind = .mask) :
    routeMatches e z = true ↔ ∀ i < 8, e.z2.getLsbD i = true → z.testBit i = e.z1.getLsbD i := by
  rw [routeMatches_mask h, and_mask_eq_iff]
  refine forall₂_congr fun i hi => ?_
  rw [BitVec.getLsbD_ofNat, decide_eq_true hi, Bool.true_and]

/-- Settles O23, kind by kind: the empty range and the mask of 0 follow from what the comparison of a RANGE and
of a MASK entry answers. -/
theorem routeEntriesMatchByType : Obligations.RouteEntriesMatchByType := by
  intro e z _
  refine ⟨routeMatches_range, fun h crossed => ?_, routeMatches_pair, routeMatches_mask_bits, fun h zero => ?_⟩
  · rw [Bool.eq_false_iff, ne_eq, routeMatches_range h]
    omega
  · simp [routeMatches_mask h, zero]

end Sys2Proof.Safety
end
